-- ==== Sys2Proof/Word.lean ====
section
/-! DEFINITION. The machine's word types (00_scope R5, R6, R7): every value is unsigned, of fixed width. -/

namespace Sys2Proof

/-- A u8: a general register, a timer counter, a memory cell (R11, R17, R29). -/
abbrev Byte := BitVec 8

/-- A u16: an instruction word, I, PC, a stack entry (R13, R14, R15, R46). -/
abbrev Word := BitVec 16

/-- A 12-bit address operand `nnn` (R46). -/
abbrev Addr12 := BitVec 12

/-- A register number `x` or `y` (R46): 0 is V0, 0xF is VF. -/
abbrev RegNum := BitVec 4

/-- A 4-bit field, the sprite height `n` of DRW (R46, R48). -/
abbrev Nibble := BitVec 4

/-- The number of VF, "the 16th general register" (R11, R12). -/
abbrev vF : RegNum := 0xF#4

end Sys2Proof
end

