-- ==== Sys2Proof/Syntax.lean ====
section
/-! DEFINITION. The 36 operations (30_encoding R53), one constructor per row of spec/opcode_table.json, in its order.
Fields that the decoder does not examine (n of 5xyn and 9xyn, y of 8xy6 and 8xyE, R51) are no operands:
DEDUCED (log entry 11, safe). -/

namespace Sys2Proof

/-- An instruction. `x`, `y` are register numbers, `kk` a byte, `nnn` a 12-bit address, `n` a row count (R46). -/
inductive Instr where
  | cls                                  -- 00E0  R69
  | ret                                  -- 00EE  R70
  | call (nnn : Addr12)                  -- 2nnn  R71
  | jp (nnn : Addr12)                    -- 1nnn  R72
  | jpV0 (nnn : Addr12)                  -- Bnnn  R73
  | sys (nnn : Addr12)                   -- 0nnn  R74
  | exit                                 -- 00FD  R75
  | seImm (x : RegNum) (kk : Byte)       -- 3xkk  R76
  | sneImm (x : RegNum) (kk : Byte)      -- 4xkk  R77
  | seReg (x y : RegNum)                 -- 5xyn  R78
  | sneReg (x y : RegNum)                -- 9xyn  R79
  | ldImm (x : RegNum) (kk : Byte)       -- 6xkk  R82
  | ldReg (x y : RegNum)                 -- 8xy0  R83
  | addImm (x : RegNum) (kk : Byte)      -- 7xkk  R84
  | orReg (x y : RegNum)                 -- 8xy1  R85
  | andReg (x y : RegNum)                -- 8xy2  R86
  | xorReg (x y : RegNum)                -- 8xy3  R87
  | addReg (x y : RegNum)                -- 8xy4  R88
  | subReg (x y : RegNum)                -- 8xy5  R89
  | subnReg (x y : RegNum)               -- 8xy7  R90
  | shr (x : RegNum)                     -- 8xy6  R91
  | shl (x : RegNum)                     -- 8xyE  R92
  | ldI (nnn : Addr12)                   -- Annn  R93
  | addI (x : RegNum)                    -- Fx1E  R94
  | ldGlyph (x : RegNum)                 -- Fx29  R95
  | ldBcd (x : RegNum)                   -- Fx33  R96
  | storeRegs (x : RegNum)               -- Fx55  R98
  | loadRegs (x : RegNum)                -- Fx65  R99
  | rnd (x : RegNum) (kk : Byte)         -- Cxkk  R100
  | skp (x : RegNum)                     -- Ex9E  R102
  | sknp (x : RegNum)                    -- ExA1  R103
  | ldKey (x : RegNum)                   -- Fx0A  R104
  | ldFromDT (x : RegNum)                -- Fx07  R105
  | ldDT (x : RegNum)                    -- Fx15  R106
  | ldST (x : RegNum)                    -- Fx18  R107
  | drw (x y : RegNum) (n : Nibble)      -- Dxyn  R109
  deriving DecidableEq, Repr

end Sys2Proof
end

