-- ==== Sys2Proof/WellFormed.lean ====
section
/-! DEFINITION. Which terms of `Instr` are instructions of the machine: those that some word encodes (R53). The types
of the fields carry every bound but one: `SYS nnn` stands for the category-0 words OTHER than 00E0, 00EE and 00FD,
which are CLS, RET and EXIT (R50). -/

namespace Sys2Proof

/-- The `nnn` of the three category-0 words that are not SYS (R50). -/
def sysExcept : List Addr12 := [0x0E0#12, 0x0EE#12, 0x0FD#12]

/-- Some word decodes to `i` (R50, R53): the one check is on SYS. -/
def Instr.wellFormed : Instr → Bool
  | .sys nnn => !(sysExcept.contains nnn)
  | .cls | .ret | .exit => true
  | .call _ | .jp _ | .jpV0 _ | .ldI _ => true
  | .seImm _ _ | .sneImm _ _ | .ldImm _ _ | .addImm _ _ | .rnd _ _ => true
  | .seReg _ _ | .sneReg _ _ | .ldReg _ _ | .orReg _ _ | .andReg _ _ | .xorReg _ _ => true
  | .addReg _ _ | .subReg _ _ | .subnReg _ _ => true
  | .shr _ | .shl _ | .addI _ | .ldGlyph _ | .ldBcd _ | .storeRegs _ | .loadRegs _ => true
  | .skp _ | .sknp _ | .ldKey _ | .ldFromDT _ | .ldDT _ | .ldST _ => true
  | .drw _ _ _ => true

/-- The same as a proposition. -/
abbrev Instr.WellFormed (i : Instr) : Prop := i.wellFormed = true

end Sys2Proof
end

