-- ==== Sys2Proof/Decode.lean ====
section
/-! DEFINITION. The decoder (30_encoding R49), total on all words and all byte lists, rejecting by name; then the
encoder (R53, R55), written from the same table. Bit patterns other than 6xkk and 7xkk are the spec's choice D37. -/

namespace Sys2Proof

/-- Why bytes are no instruction (R52). Each of the first three is the core's `DecodeError(w)` (R113). -/
inductive DecodeReject where
  /-- `8xyn` with `n` in 8..D or F. -/
  | undefinedArith (n : Nibble)
  /-- `Exkk` with `kk` neither 9E nor A1. -/
  | undefinedKeyTest (kk : Byte)
  /-- `Fxkk` with `kk` none of the nine selectors. -/
  | undefinedMisc (kk : Byte)
  /-- Fewer than two bytes: no instruction is shorter than 16 bits (R47). The machine's fetch never gives these. -/
  | truncated
  deriving DecidableEq, Repr

/-! ## Fields of a word (R46) -/

/-- `o`, w[15:12]: the category. -/
def fieldO (w : Word) : Nibble := w.extractLsb' 12 4

/-- `x`, w[11:8]. -/
def fieldX (w : Word) : RegNum := w.extractLsb' 8 4

/-- `y`, w[7:4]. -/
def fieldY (w : Word) : RegNum := w.extractLsb' 4 4

/-- `n`, w[3:0]. -/
def fieldN (w : Word) : Nibble := w.extractLsb' 0 4

/-- `kk`, w[7:0]. -/
def fieldKK (w : Word) : Byte := w.extractLsb' 0 8

/-- `nnn`, w[11:0]. -/
def fieldNNN (w : Word) : Addr12 := w.extractLsb' 0 12

/-! ## The decoder (R49) -/

/-- Category 0 (R50): three exact words, and SYS for every other. -/
def decodeSys (nnn : Addr12) : Instr :=
  if nnn = 0x0E0#12 then .cls
  else if nnn = 0x0EE#12 then .ret
  else if nnn = 0x0FD#12 then .exit
  else .sys nnn

/-- Category 8: the low nibble selects (R49). -/
def decodeArith (x y : RegNum) (n : Nibble) : Except DecodeReject Instr :=
  match n.toNat with
  | 0x0 => .ok (.ldReg x y)
  | 0x1 => .ok (.orReg x y)
  | 0x2 => .ok (.andReg x y)
  | 0x3 => .ok (.xorReg x y)
  | 0x4 => .ok (.addReg x y)
  | 0x5 => .ok (.subReg x y)
  | 0x6 => .ok (.shr x)
  | 0x7 => .ok (.subnReg x y)
  | 0xE => .ok (.shl x)
  | _ => .error (.undefinedArith n)

/-- Category E: the low byte selects (R49). -/
def decodeKeyTest (x : RegNum) (kk : Byte) : Except DecodeReject Instr :=
  if kk = 0x9E#8 then .ok (.skp x)
  else if kk = 0xA1#8 then .ok (.sknp x)
  else .error (.undefinedKeyTest kk)

/-- Category F: the low byte selects (R49). -/
def decodeMisc (x : RegNum) (kk : Byte) : Except DecodeReject Instr :=
  if kk = 0x07#8 then .ok (.ldFromDT x)
  else if kk = 0x0A#8 then .ok (.ldKey x)
  else if kk = 0x15#8 then .ok (.ldDT x)
  else if kk = 0x18#8 then .ok (.ldST x)
  else if kk = 0x1E#8 then .ok (.addI x)
  else if kk = 0x29#8 then .ok (.ldGlyph x)
  else if kk = 0x33#8 then .ok (.ldBcd x)
  else if kk = 0x55#8 then .ok (.storeRegs x)
  else if kk = 0x65#8 then .ok (.loadRegs x)
  else .error (.undefinedMisc kk)

/-- `Decode(w)` (R49): the category first, a secondary selector for categories 0, 8, E and F only. -/
def decode (w : Word) : Except DecodeReject Instr :=
  match (fieldO w).toNat with
  | 0x0 => .ok (decodeSys (fieldNNN w))
  | 0x1 => .ok (.jp (fieldNNN w))
  | 0x2 => .ok (.call (fieldNNN w))
  | 0x3 => .ok (.seImm (fieldX w) (fieldKK w))
  | 0x4 => .ok (.sneImm (fieldX w) (fieldKK w))
  | 0x5 => .ok (.seReg (fieldX w) (fieldY w))
  | 0x6 => .ok (.ldImm (fieldX w) (fieldKK w))
  | 0x7 => .ok (.addImm (fieldX w) (fieldKK w))
  | 0x8 => decodeArith (fieldX w) (fieldY w) (fieldN w)
  | 0x9 => .ok (.sneReg (fieldX w) (fieldY w))
  | 0xA => .ok (.ldI (fieldNNN w))
  | 0xB => .ok (.jpV0 (fieldNNN w))
  | 0xC => .ok (.rnd (fieldX w) (fieldKK w))
  | 0xD => .ok (.drw (fieldX w) (fieldY w) (fieldN w))
  | 0xE => decodeKeyTest (fieldX w) (fieldKK w)
  | _ => decodeMisc (fieldX w) (fieldKK w)

/-- The word of two bytes in memory order: the byte at the lower address is bits 15:8 (R33). -/
def wordOfBytes (hi lo : Byte) : Word := hi ++ lo

/-- The high byte of a word, the one at the lower address (R33). -/
def highByte (w : Word) : Byte := w.extractLsb' 8 8

/-- The low byte of a word. -/
def lowByte (w : Word) : Byte := w.extractLsb' 0 8

/-- Decode the first instruction of a byte list, with the rest of the list (R33, R47, R49). -/
def decodeBytes : List Byte → Except DecodeReject (Instr × List Byte)
  | hi :: lo :: rest =>
    match decode (wordOfBytes hi lo) with
    | .ok i => .ok (i, rest)
    | .error r => .error r
  | _ => .error .truncated

/-! ## The encoder (R53, R55) -/

/-- The canonical word of an instruction: the pattern of R53 with every ignored field 0 (R55). -/
def encode : Instr → Word
  | .cls => 0x00E0#16
  | .ret => 0x00EE#16
  | .call nnn => 0x2#4 ++ nnn
  | .jp nnn => 0x1#4 ++ nnn
  | .jpV0 nnn => 0xB#4 ++ nnn
  | .sys nnn => 0x0#4 ++ nnn
  | .exit => 0x00FD#16
  | .seImm x kk => 0x3#4 ++ x ++ kk
  | .sneImm x kk => 0x4#4 ++ x ++ kk
  | .seReg x y => 0x5#4 ++ x ++ y ++ 0x0#4
  | .sneReg x y => 0x9#4 ++ x ++ y ++ 0x0#4
  | .ldImm x kk => 0x6#4 ++ x ++ kk
  | .ldReg x y => 0x8#4 ++ x ++ y ++ 0x0#4
  | .addImm x kk => 0x7#4 ++ x ++ kk
  | .orReg x y => 0x8#4 ++ x ++ y ++ 0x1#4
  | .andReg x y => 0x8#4 ++ x ++ y ++ 0x2#4
  | .xorReg x y => 0x8#4 ++ x ++ y ++ 0x3#4
  | .addReg x y => 0x8#4 ++ x ++ y ++ 0x4#4
  | .subReg x y => 0x8#4 ++ x ++ y ++ 0x5#4
  | .subnReg x y => 0x8#4 ++ x ++ y ++ 0x7#4
  | .shr x => 0x8#4 ++ x ++ 0x0#4 ++ 0x6#4
  | .shl x => 0x8#4 ++ x ++ 0x0#4 ++ 0xE#4
  | .ldI nnn => 0xA#4 ++ nnn
  | .addI x => 0xF#4 ++ x ++ 0x1E#8
  | .ldGlyph x => 0xF#4 ++ x ++ 0x29#8
  | .ldBcd x => 0xF#4 ++ x ++ 0x33#8
  | .storeRegs x => 0xF#4 ++ x ++ 0x55#8
  | .loadRegs x => 0xF#4 ++ x ++ 0x65#8
  | .rnd x kk => 0xC#4 ++ x ++ kk
  | .skp x => 0xE#4 ++ x ++ 0x9E#8
  | .sknp x => 0xE#4 ++ x ++ 0xA1#8
  | .ldKey x => 0xF#4 ++ x ++ 0x0A#8
  | .ldFromDT x => 0xF#4 ++ x ++ 0x07#8
  | .ldDT x => 0xF#4 ++ x ++ 0x15#8
  | .ldST x => 0xF#4 ++ x ++ 0x18#8
  | .drw x y n => 0xD#4 ++ x ++ y ++ n

/-- The bytes of an instruction in memory order (R33). -/
def encodeBytes (i : Instr) : List Byte := [highByte (encode i), lowByte (encode i)]

/-! ## The opcode table (R53): `match` and `mask` of each constructor's row -/

/-- The row's mask (R53). -/
def Instr.rowMask : Instr → Word
  | .cls | .ret | .exit => 0xFFFF#16
  | .call _ | .jp _ | .jpV0 _ | .sys _ | .ldI _ => 0xF000#16
  | .seImm _ _ | .sneImm _ _ | .ldImm _ _ | .addImm _ _ | .rnd _ _ => 0xF000#16
  | .seReg _ _ | .sneReg _ _ | .drw _ _ _ => 0xF000#16
  | .ldReg _ _ | .orReg _ _ | .andReg _ _ | .xorReg _ _ | .addReg _ _ | .subReg _ _ | .subnReg _ _ => 0xF00F#16
  | .shr _ | .shl _ => 0xF00F#16
  | .addI _ | .ldGlyph _ | .ldBcd _ | .storeRegs _ | .loadRegs _ => 0xF0FF#16
  | .skp _ | .sknp _ | .ldKey _ | .ldFromDT _ | .ldDT _ | .ldST _ => 0xF0FF#16

/-- The row's match (R53). -/
def Instr.rowMatch : Instr → Word
  | .cls => 0x00E0#16
  | .ret => 0x00EE#16
  | .call _ => 0x2000#16
  | .jp _ => 0x1000#16
  | .jpV0 _ => 0xB000#16
  | .sys _ => 0x0000#16
  | .exit => 0x00FD#16
  | .seImm _ _ => 0x3000#16
  | .sneImm _ _ => 0x4000#16
  | .seReg _ _ => 0x5000#16
  | .sneReg _ _ => 0x9000#16
  | .ldImm _ _ => 0x6000#16
  | .ldReg _ _ => 0x8000#16
  | .addImm _ _ => 0x7000#16
  | .orReg _ _ => 0x8001#16
  | .andReg _ _ => 0x8002#16
  | .xorReg _ _ => 0x8003#16
  | .addReg _ _ => 0x8004#16
  | .subReg _ _ => 0x8005#16
  | .subnReg _ _ => 0x8007#16
  | .shr _ => 0x8006#16
  | .shl _ => 0x800E#16
  | .ldI _ => 0xA000#16
  | .addI _ => 0xF01E#16
  | .ldGlyph _ => 0xF029#16
  | .ldBcd _ => 0xF033#16
  | .storeRegs _ => 0xF055#16
  | .loadRegs _ => 0xF065#16
  | .rnd _ _ => 0xC000#16
  | .skp _ => 0xE09E#16
  | .sknp _ => 0xE0A1#16
  | .ldKey _ => 0xF00A#16
  | .ldFromDT _ => 0xF007#16
  | .ldDT _ => 0xF015#16
  | .ldST _ => 0xF018#16
  | .drw _ _ _ => 0xD000#16

/-- `w` with the fields its decoding does not examine set to 0 (R51, R55): `n` of 5xyn and 9xyn, `y` of 8xy6 and
8xyE. -/
def canonicalWord (w : Word) : Word :=
  if fieldO w = 0x5#4 ∨ fieldO w = 0x9#4 then w &&& 0xFFF0#16
  else if fieldO w = 0x8#4 ∧ (fieldN w = 0x6#4 ∨ fieldN w = 0xE#4) then w &&& 0xFF0F#16
  else w

/-! ## The host's question about a table row -/

/-- The one word of an instruction given as the low `nbits` bits of `w`, bits above them 0 (R46, R47). -/
def tableWord (nbits w : Nat) : Word := BitVec.ofNat 16 (w % 2 ^ nbits)

/-- The instruction the decoder reads from the instruction whose bits are `w`, laid out as memory holds it:
one word, its high byte first (R33). -/
def decodeTableWord (nbits w : Nat) : Option Instr :=
  match decodeBytes [highByte (tableWord nbits w), lowByte (tableWord nbits w)] with
  | .ok (i, _) => some i
  | .error _ => none

end Sys2Proof
end

