-- ==== Sys2Proof/Config.lean ====
section
/-! DEFINITION. What is fixed for the machine (00_scope R5), its uninterpreted parameters, and the free values the
host supplies (40 R57, 45 R100). The `opaque` constants have no body: nothing can be proved of their values. -/

namespace Sys2Proof

/-- `MEM_SIZE` (R5): 4096 cells. -/
abbrev Config.memSize : Nat := 4096

/-- `ADDR_MAX` (R5). -/
abbrev Config.addrMax : Nat := 0xFFF

/-- `PROGRAM_BASE`, the reset PC (R5, R30). -/
abbrev Config.programBase : Nat := 0x200

/-- `MAX_ROM` (R5): 0xFFF - 0x200 + 1. -/
abbrev Config.maxRom : Nat := 3584

/-- `FONT_BASE` (R5, R31). -/
abbrev Config.fontBase : Nat := 0x000

/-- `STACK_DEPTH` (R5, R15). -/
abbrev Config.stackDepth : Nat := 16

/-- What this hardware takes for the parameter `FB_W` (R5): 64 columns. The model itself takes the size of the
framebuffer as an argument, `Screen.width` of the state; only `State.reset` uses this value (log entry 15). -/
abbrev Config.fbW : Nat := 64

/-- What this hardware takes for the parameter `FB_H` (R5): 32 rows; as above. -/
abbrev Config.fbH : Nat := 32

/-- The 16 key states (R23, R58), indexed by logical key code 0x0..0xF (R101). -/
abbrev Keys := Vector Bool 16

/-- What the host gives a Running step (R57): its time, and the keypad's 16 states. -/
structure StepInput where
  now : Nat
  keys : Keys
  deriving DecidableEq, Repr, Inhabited

/-- One less than `DELAY_PERIOD`: an uninterpreted parameter, so that the period is any number >= 1 (R5, R121). -/
opaque Config.delayPeriodLessOne : Nat

/-- One less than `SOUND_PERIOD`: uninterpreted, as above. -/
opaque Config.soundPeriodLessOne : Nat

/-- `DELAY_PERIOD` in host time units (R5, R134), at least 1 (R121). DESIGN CHOICE (log entry 5, safe). -/
def Config.delayPeriod : Nat := Config.delayPeriodLessOne + 1

/-- `SOUND_PERIOD` in host time units (R5, R134), at least 1 (R121). DESIGN CHOICE (log entry 5, safe). -/
def Config.soundPeriod : Nat := Config.soundPeriodLessOne + 1

/-- Free value: the input of the k-th Running step where the state's `inputs` fixes none (R57, R133).
DESIGN CHOICE (log entry 2, safe): unconstrained, so decreasing times are among its values. -/
opaque Config.freeInput : Nat → StepInput

/-- Free value: the k-th random byte where the state's `randoms` fixes none; "any u8" (R100, R125).
DESIGN CHOICE (log entry 3, safe). -/
opaque Config.freeRandom : Nat → Byte

end Sys2Proof
end

