-- ==== Sys2Proof/Machine/State.lean ====
section
/-! DEFINITION. The state of the machine (10_state R10), what the host sees of it, and its reset value. Plain data. -/

namespace Sys2Proof.Machine

/-- The machine state of R20. -/
inductive RunState where
  | running
  | halted
  deriving DecidableEq, Repr

/-- The errors of the core (60_exceptions R113), with the information each records. An error is no model fault:
its whole effect is a next state (R114, R115; log entry 9). -/
inductive CoreError where
  /-- Code 1: the word `w` matches no operation (R52). -/
  | decodeError (w : Word)
  /-- Code 2: CALL with 16 live frames (R71). -/
  | stackOverflow
  /-- Code 3: RET with none (R70). -/
  | stackUnderflow
  /-- Code 4: the first address above 0xFFF that an access needed (R36). -/
  | memoryBounds (addr : Nat)
  /-- Code 5: `load` of a ROM of `len` bytes, more than 3584 (R137). -/
  | romTooLarge (len : Nat)
  deriving DecidableEq, Repr

/-- What `step()` or `load()` returns (R64, R137). -/
inductive Status where
  | ok
  | exited
  | halted
  | error (e : CoreError)
  deriving DecidableEq, Repr

/-- Why the MODEL stops. None of these is an error of the core. -/
inductive Fault where
  /-- Raised by CALL and RET when SP > 16: they would use a stack entry that does not exist (R15, R16). No run
  reaches such a state. DESIGN CHOICE (log entry 8), safe. -/
  | stackSlotAbsent (sp : Nat)
  deriving DecidableEq, Repr

/-- Why the model has no meaning for an instruction. -/
inductive Refusal where
  /-- Raised by an arm of `exec` whose instruction has no meaning yet; safe. No arm raises it. -/
  | notModelled (mnemonic : String)
  deriving DecidableEq, Repr

/-- The framebuffer `fb[x][y]` (R21, R108), column `x` first, with its size, the parameters `FB_W` and `FB_H` of R5:
constant configuration, which no instruction and no command changes (R23, D22). Log entry 15. -/
structure Screen where
  /-- `FB_W`. -/
  width : Nat
  /-- `FB_H`. -/
  height : Nat
  /-- The pixels. -/
  cells : Vector (Vector Bool height) width
  deriving DecidableEq, Repr

/-- Memory (R29): the listed cells, addresses strictly rising, none equal to what an unlisted address reads as. -/
abbrev Mem := List Host.Cell

/-- The state. The first twelve fields are R10's tuple; the rest are parameters and the model's own record of the
host's inputs and of the returned status (INVENTORY.md, '## State'). -/
structure State where
  /-- V0..VF (R11). -/
  v : Vector Byte 16
  /-- I (R13): 16 bits stored; every write is masked to 12. -/
  i : Word
  /-- PC (R14). -/
  pc : Word
  /-- The call stack (R15). -/
  stack : Vector Word 16
  /-- SP (R16): the number of live frames. -/
  sp : Byte
  /-- DT (R17). -/
  dt : Byte
  /-- ST (R18). -/
  st : Byte
  /-- The time the delay gate last fired (R19). -/
  gateD : Nat
  /-- The time the sound gate last fired (R19). -/
  gateS : Nat
  /-- Running or Halted (R20). -/
  run : RunState
  /-- The framebuffer (R21), with `FB_W` and `FB_H`. -/
  fb : Screen
  /-- Memory (R22). -/
  mem : Mem
  /-- `DELAY_PERIOD`, constant (R5, R26). Log entry 5. -/
  delayPeriod : Nat
  /-- `SOUND_PERIOD`, constant (R5, R26). Log entry 5. -/
  soundPeriod : Nat
  /-- The keypad snapshot K of the step under way (R58). Log entry 4. -/
  keys : Keys
  /-- The inputs the host has fixed for coming Running steps, oldest first (R57). Log entry 2. -/
  inputs : List StepInput
  /-- How many inputs have been taken: the argument of the next free input. Log entry 2. -/
  calls : Nat
  /-- The random bytes the host has fixed for coming RNDs, oldest first (R100). Log entry 3. -/
  randoms : List Byte
  /-- How many random bytes have been taken: the argument of the next free byte. Log entry 3. -/
  drawn : Nat
  /-- What the latest `step()` or `load()` returned since the last `reset()`, none if nothing did
  (R64, R115). Log entry 1. -/
  status : Option Status
  deriving DecidableEq, Repr

/-- The clear framebuffer of a size (R26). -/
def Screen.clear (width height : Nat) : Screen where
  width := width
  height := height
  cells := Vector.replicate width (Vector.replicate height false)

/-- The machine just constructed (R26, R27, R135): nothing loaded, Running at 0x200, memory the glyph table and
zeros. The values of the fields after `mem`, and the gates at the time origin 0, are DESIGN CHOICE, unsafe where
log entries 1 to 6 say so. -/
def State.reset : State where
  v := Vector.replicate 16 0
  i := 0
  pc := 0x200
  stack := Vector.replicate 16 0
  sp := 0
  dt := 0
  st := 0
  gateD := 0
  gateS := 0
  run := .running
  fb := Screen.clear Config.fbW Config.fbH
  mem := []
  delayPeriod := Config.delayPeriod
  soundPeriod := Config.soundPeriod
  keys := Vector.replicate 16 false
  inputs := []
  calls := 0
  randoms := []
  drawn := 0
  status := none

end Sys2Proof.Machine
end

