-- ==== Sys2Proof/Machine/Memory.lean ====
section
/-! DEFINITION. Memory (20_memory): what an unlisted address reads as, reading, writing, the canonical form. These
functions are total on all addresses; no instruction uses one above 0xFFF, since every access is range-checked first
(R36; log entry 10). -/

namespace Sys2Proof.Machine

/-- The glyph table of R31: 16 glyphs of 5 bytes, glyph k at 5k. The bytes are the spec's choice D19. -/
def glyphs : List Byte :=
  [0xF0, 0x90, 0x90, 0x90, 0xF0] ++ [0x20, 0x60, 0x20, 0x20, 0x70] ++
  [0xF0, 0x10, 0xF0, 0x80, 0xF0] ++ [0xF0, 0x10, 0xF0, 0x10, 0xF0] ++
  [0x90, 0x90, 0xF0, 0x10, 0x10] ++ [0xF0, 0x80, 0xF0, 0x10, 0xF0] ++
  [0xF0, 0x80, 0xF0, 0x90, 0xF0] ++ [0xF0, 0x10, 0x20, 0x40, 0x40] ++
  [0xF0, 0x90, 0xF0, 0x90, 0xF0] ++ [0xF0, 0x90, 0xF0, 0x10, 0xF0] ++
  [0xF0, 0x90, 0xF0, 0x90, 0x90] ++ [0xE0, 0x90, 0xE0, 0x90, 0xE0] ++
  [0xF0, 0x80, 0x80, 0x80, 0xF0] ++ [0xE0, 0x90, 0x90, 0x90, 0xE0] ++
  [0xF0, 0x80, 0xF0, 0x80, 0xF0] ++ [0xF0, 0x80, 0xF0, 0x80, 0x80]

/-- What an unlisted address reads as: the contents at construction (R27, R31; log entry 7). -/
def Mem.resetByte (a : Nat) : Byte := glyphs.getD a 0

/-- `MemRead(a, 1)` (R8, R35). -/
def Mem.read : Mem → Nat → Byte
  | [], a => Mem.resetByte a
  | (k, b) :: m, a => if a = k then b else Mem.read m a

/-- Put a cell at its place in a list that does not hold its address. -/
def Mem.insert (a : Nat) (b : Byte) : Mem → Mem
  | [] => [(a, b)]
  | c :: m => if a < c.1 then (a, b) :: c :: m else c :: Mem.insert a b m

/-- The memory with nothing listed at `a`. -/
def Mem.erase (m : Mem) (a : Nat) : Mem := m.filter (fun c => c.1 != a)

/-- `MemWrite(a, 1, b)` (R8, R35). Writing what an unlisted address reads as removes the cell. -/
def Mem.write (m : Mem) (a : Nat) (b : Byte) : Mem :=
  if b = Mem.resetByte a then Mem.erase m a else Mem.insert a b (Mem.erase m a)

/-- Write bytes at `a`, `a+1`, ... in ascending order (R40). -/
def Mem.writeBlock (m : Mem) (a : Nat) : List Byte → Mem
  | [] => m
  | b :: bs => Mem.writeBlock (Mem.write m a b) (a + 1) bs

/-- The `len` bytes from `a` on, in ascending order (R40). -/
def Mem.readBlock (m : Mem) (a len : Nat) : List Byte := (List.range len).map (fun k => Mem.read m (a + k))

/-- The canonical form: addresses strictly rising and inside the space (R29), no cell equal to its reset contents. -/
abbrev Mem.wf (m : Mem) : Prop :=
  List.Pairwise (fun c d : Host.Cell => c.1 < d.1) m ∧
    ∀ c ∈ m, c.1 < Config.memSize ∧ c.2 ≠ Mem.resetByte c.1

end Sys2Proof.Machine
end

