-- ==== Sys2Proof/Machine/Operands.lean ====
section
/-! DEFINITION. Every operand form (30_encoding R48) and address computation (20_memory R36, 44 R95, 45 R101). -/

namespace Sys2Proof.Machine

/-- `InRange(base, len)` for `len >= 1` (R36): exact integers, no wrap. -/
abbrev InRange (base len : Nat) : Prop := base + len - 1 ≤ Config.addrMax

/-- `OutAddr(base)` (R36): the first address past 0xFFF that the access touches. -/
def outAddr (base : Nat) : Nat := max base 0x1000

/-- `zext_16(nnn)` (R48). -/
def zextAddr (nnn : Addr12) : Word := nnn.setWidth 16

/-- `zext_16` of a byte (R73, R94). -/
def zextByte (b : Byte) : Word := b.setWidth 16

/-- What is stored by `I <- w`: bits 15:12 are masked off on every write (R13). -/
def maskI (w : Word) : Word := w &&& 0x0FFF#16

/-- The address of the glyph of `b`, before the mask (R95): at most 0x4FB. -/
def glyphAddr (b : Byte) : Word := zextByte b * 5#16

/-- The key that `SKP` and `SKNP` test (R101): `b & 0xF`. -/
def keyIndex (b : Byte) : Nat := (b &&& 0x0F#8).toNat

/-- Is key `k` pressed in the snapshot? (R58) -/
def keyPressed (keys : Keys) (k : Nat) : Bool := keys[k]?.getD false

/-- The lowest-numbered pressed key, if any is pressed (R104). -/
def lowestKey (keys : Keys) : Option Nat := (List.range 16).find? (keyPressed keys)

/-- The three decimal digits of a byte, hundreds first (R96). -/
def bcdDigits (b : Byte) : List Byte :=
  [BitVec.ofNat 8 (b.toNat / 100), BitVec.ofNat 8 (b.toNat / 10 % 10), BitVec.ofNat 8 (b.toNat % 10)]

end Sys2Proof.Machine
end

