-- ==== Sys2Proof/Machine/Ops.lean ====
section
/-! DEFINITION. The named operations over the state, among them raising an error (60_exceptions R114), which is this
machine's one kind of exception, and `reset()` (R136), which with `load()` is the only way back from it (R118). -/

namespace Sys2Proof.Machine

/-- What a meaning answers. -/
abbrev Result := Host.Outcome State Fault Refusal

/-! ## Registers -/

/-- `V[x]` (R8, R11). -/
def State.reg (s : State) (x : RegNum) : Byte := s.v[x.toNat]

/-- `V[x] <- b` (R8, R11). -/
def State.setReg (s : State) (x : RegNum) (b : Byte) : State := { s with v := s.v.set x.toNat b x.isLt }

/-- The result to `V[x]` first, the flag to VF last (R81): with x = F the flag survives. -/
def State.setRegFlag (s : State) (x : RegNum) (result flag : Byte) : State := (s.setReg x result).setReg vF flag

/-- `I <- w`, storing `w & 0xFFF` (R13). -/
def State.setI (s : State) (w : Word) : State := { s with i := maskI w }

/-- `DT <- b`; the gate is not changed (R106). -/
def State.setDT (s : State) (b : Byte) : State := { s with dt := b }

/-- `ST <- b`; the gate is not changed (R107). -/
def State.setST (s : State) (b : Byte) : State := { s with st := b }

/-- V0..Vx, the registers a block transfer moves (R97). -/
def State.lowRegs (s : State) (x : RegNum) : List Byte := s.v.toList.take (x.toNat + 1)

/-- `V[k] <- mem[base + k]` for k in 0..x (R99). -/
def State.loadLowRegs (s : State) (x : RegNum) (base : Nat) : State :=
  { s with v := Vector.ofFn (fun k : Fin 16 => if k.val ≤ x.toNat then Mem.read s.mem (base + k.val) else s.v[k]) }

/-! ## Memory and screen -/

/-- Store bytes at `a`, `a+1`, ... (R40). -/
def State.store (s : State) (a : Nat) (bs : List Byte) : State := { s with mem := Mem.writeBlock s.mem a bs }

/-- Replace the framebuffer. -/
def State.setScreen (s : State) (f : Screen) : State := { s with fb := f }

/-! ## The random source -/

/-- The byte `RandomByte()` gives next (R100): the host's, or a free value where none is fixed (log entry 3). -/
def State.randomByte (s : State) : Byte :=
  match s.randoms with
  | [] => Config.freeRandom s.drawn
  | b :: _ => b

/-- The state after one byte is taken from the source (R100). -/
def State.takeRandom (s : State) : State := { s with randoms := s.randoms.tail, drawn := s.drawn + 1 }

/-! ## Ending an instruction -/

/-- The next PC is `target`, the status Ok (R62, R64). -/
def State.finish (s : State) (target : Word) : State := { s with pc := target, status := some .ok }

/-- The instruction completes with the next PC `target`. -/
def State.goto (s : State) (target : Word) : Result := .next (s.finish target)

/-- `PC <- pc_next` (R61, R62). -/
def State.advance (s : State) : Result := s.goto (s.pc + 2#16)

/-- A conditional skip: PC + 4 if `c`, else PC + 2 (R62). -/
def State.skipIf (s : State) (c : Bool) : Result := s.goto (if c then s.pc + 4#16 else s.pc + 2#16)

/-- `raise E(info)` (R8, R114, R115): the machine halts, the status records the error, and nothing else changes; PC
keeps the instruction's address. -/
def State.raise (s : State) (e : CoreError) : State := { s with run := .halted, status := some (.error e) }

/-- `halt_exit` (R8, R75): the machine halts with status Exited; PC is unchanged. -/
def State.haltExit (s : State) : State := { s with run := .halted, status := some .exited }

/-- A step of a Halted machine (R57): nothing but the returned status. -/
def State.stepHalted (s : State) : State := { s with status := some .halted }

/-- Check `InRange(base, len)`; if it fails, raise `MemoryBoundsError(OutAddr(base))` before any access (R36). -/
def State.guardRange (s : State) (base len : Nat) (k : Result) : Result :=
  if InRange base len then k else .next (s.raise (.memoryBounds (outAddr base)))

/-! ## The call stack -/

/-- `stack[SP] <- ret; SP <- SP + 1` (R71). -/
def State.push (s : State) (ret : Word) (h : s.sp.toNat < 16) : State :=
  { s with stack := s.stack.set s.sp.toNat ret h, sp := s.sp + 1#8 }

/-- `SP <- SP - 1` (R70); the popped entry is not cleared (R15). -/
def State.pop (s : State) : State := { s with sp := s.sp - 1#8 }

/-- Push a return address and go to `target` (R71). SP > 16 is a state no run reaches (log entry 8). -/
def State.pushCall (s : State) (ret target : Word) : Result :=
  if h : s.sp.toNat < 16 then
    (s.push ret h).goto target
  else if s.sp.toNat = 16 then .next (s.raise .stackOverflow)
  else .fault (.stackSlotAbsent s.sp.toNat)

/-- Pop the return address into PC, as it is (R70, C4). -/
def State.popReturn (s : State) : Result :=
  if s.sp.toNat = 0 then .next (s.raise .stackUnderflow)
  else if h : s.sp.toNat - 1 < 16 then s.pop.goto s.stack[s.sp.toNat - 1]
  else .fault (.stackSlotAbsent s.sp.toNat)

/-! ## The way back: reset (R118, R136) -/

/-- `Reset(now)` (R136): every register, the stack, the framebuffer, the gates and the glyph table; memory above the
table and the configuration, the size of the framebuffer in it, are unchanged. It returns no status. -/
def State.hostReset (s : State) (now : Nat) : State :=
  { s with
    v := Vector.replicate 16 0
    i := 0
    pc := 0x200
    stack := Vector.replicate 16 0
    sp := 0
    dt := 0
    st := 0
    gateD := now
    gateS := now
    run := .running
    fb := Screen.clear s.fb.width s.fb.height
    mem := Mem.writeBlock s.mem Config.fontBase glyphs
    status := none }

end Sys2Proof.Machine
end

