-- ==== Sys2Proof/Machine/Timers.lean ====
section
/-! DEFINITION. The timer pair (60_exceptions R121): gates, counters, and the timer phase of a step. -/

namespace Sys2Proof.Machine

/-- Does a gate that last fired at `gate` fire at time `now`, with period `period`? (R121) -/
def gateFires (period now gate : Nat) : Bool := decide (now ≥ gate ∧ now - gate ≥ period)

/-- The counter after one timer phase: one less if the gate fires and it is nonzero (R121). -/
def tickCounter (period now gate : Nat) (c : Byte) : Byte :=
  if gateFires period now gate ∧ c ≠ 0#8 then c - 1#8 else c

/-- The gate after one timer phase: `now` if it fires, whatever the counter is (R121). -/
def tickGate (period now gate : Nat) : Nat := if gateFires period now gate then now else gate

/-- `TimerPhase(now)` (R121): both timers, independently. -/
def State.timerPhase (s : State) (now : Nat) : State :=
  { s with
    dt := tickCounter s.delayPeriod now s.gateD s.dt
    gateD := tickGate s.delayPeriod now s.gateD
    st := tickCounter s.soundPeriod now s.gateS s.st
    gateS := tickGate s.soundPeriod now s.gateS }

end Sys2Proof.Machine
end

