-- ==== Sys2Proof/Machine/Cycle.lean ====
section
/-! DEFINITION. The parts of a step around the execution (40_step_cycle R57 to R61): its input, the keypad snapshot,
the timer phase, the fetch and the decode; and where a word is placed to be fetched next. -/

namespace Sys2Proof.Machine

/-- The input the host gives the next Running step (R57), or a free value where none is fixed (log entry 2). -/
def State.input (s : State) : StepInput :=
  match s.inputs with
  | [] => Config.freeInput s.calls
  | j :: _ => j

/-- Take the step's input: the keypad snapshot is copied (R58). -/
def State.takeInput (s : State) : State :=
  { s with keys := s.input.keys, inputs := s.inputs.tail, calls := s.calls + 1 }

/-- The start of a Running step: the snapshot, then the timer phase (R58, R59). -/
def State.beginStep (s : State) : State := s.takeInput.timerPhase s.input.now

/-- The two bytes at PC, as a big-endian word (R33, R60). -/
def State.fetchWord (s : State) : Word := wordOfBytes (Mem.read s.mem s.pc.toNat) (Mem.read s.mem (s.pc.toNat + 1))

/-- Fetch and decode: the fetch range is checked first, then the word is decoded (R60, R61, R117). -/
def State.fetchInstr (s : State) : Except CoreError Instr :=
  if InRange s.pc.toNat 2 then
    match decode s.fetchWord with
    | .ok i => .ok i
    | .error _ => .error (.decodeError s.fetchWord)
  else .error (.memoryBounds (outAddr s.pc.toNat))

/-- Where a word placed for the next fetch goes: at PC, or at 0x200 where PC can fetch nothing. -/
def State.fetchPlace (s : State) : Nat := if InRange s.pc.toNat 2 then s.pc.toNat else Config.programBase

/-- `s` with the word `w` stored where the next step fetches, and Running, so that the next step runs it. It stands
for the host's `load` (R137; log entry 12). -/
def State.placeWord (s : State) (w : Word) : State :=
  { s with
    mem := Mem.writeBlock s.mem s.fetchPlace [highByte w, lowByte w]
    pc := BitVec.ofNat 16 s.fetchPlace
    run := .running }

end Sys2Proof.Machine
end

