-- ==== Sys2Proof/Machine/Flags.lean ====
section
/-! DEFINITION. The flag computations: what VF receives from each of the flag-writing instructions (10_state R12). -/

namespace Sys2Proof.Machine

/-- A flag as the value of VF: 1 or 0. -/
def flagByte (c : Bool) : Byte := if c then 1#8 else 0#8

/-- ADD: the carry `a + b > 255` (R80, R88), on exact integers. -/
def carryFlag (a b : Byte) : Byte := flagByte (decide (a.toNat + b.toNat > 255))

/-- SUB, SUBN: "no borrow" of `a - b`, `a >= b` (R80, R89, R90). -/
def noBorrowFlag (a b : Byte) : Byte := flagByte (decide (a.toNat ≥ b.toNat))

/-- SHR: bit 0 before the shift (R91). -/
def lsbFlag (a : Byte) : Byte := flagByte (a.getLsbD 0)

/-- SHL: bit 7 before the shift (R92). -/
def msbFlag (a : Byte) : Byte := flagByte (a.getLsbD 7)

end Sys2Proof.Machine
end

