-- ==== Sys2Proof/Machine/Alu.lean ====
section
/-! DEFINITION. The load and arithmetic instructions (43_alu R82 to R92). All arithmetic is modulo 256 (R80). -/

namespace Sys2Proof.Machine

/-- `LD Vx, kk` (R82). -/
def execLdImm (x : RegNum) (kk : Byte) (s : State) : Result := (s.setReg x kk).advance

/-- `LD Vx, Vy` (R83). -/
def execLdReg (x y : RegNum) (s : State) : Result := (s.setReg x (s.reg y)).advance

/-- `ADD Vx, kk` (R84): no flag. -/
def execAddImm (x : RegNum) (kk : Byte) (s : State) : Result := (s.setReg x (s.reg x + kk)).advance

/-- `OR Vx, Vy` (R85). -/
def execOr (x y : RegNum) (s : State) : Result := (s.setReg x (s.reg x ||| s.reg y)).advance

/-- `AND Vx, Vy` (R86). -/
def execAnd (x y : RegNum) (s : State) : Result := (s.setReg x (s.reg x &&& s.reg y)).advance

/-- `XOR Vx, Vy` (R87). -/
def execXor (x y : RegNum) (s : State) : Result := (s.setReg x (s.reg x ^^^ s.reg y)).advance

/-- `ADD Vx, Vy` (R88). -/
def execAddReg (x y : RegNum) (s : State) : Result :=
  (s.setRegFlag x (s.reg x + s.reg y) (carryFlag (s.reg x) (s.reg y))).advance

/-- `SUB Vx, Vy` (R89). -/
def execSub (x y : RegNum) (s : State) : Result :=
  (s.setRegFlag x (s.reg x - s.reg y) (noBorrowFlag (s.reg x) (s.reg y))).advance

/-- `SUBN Vx, Vy` (R90). -/
def execSubn (x y : RegNum) (s : State) : Result :=
  (s.setRegFlag x (s.reg y - s.reg x) (noBorrowFlag (s.reg y) (s.reg x))).advance

/-- `SHR Vx` (R91): `Vy` is neither read nor written. -/
def execShr (x : RegNum) (s : State) : Result :=
  (s.setRegFlag x (s.reg x >>> 1) (lsbFlag (s.reg x))).advance

/-- `SHL Vx` (R92): `Vy` is neither read nor written. -/
def execShl (x : RegNum) (s : State) : Result :=
  (s.setRegFlag x (s.reg x <<< 1) (msbFlag (s.reg x))).advance

end Sys2Proof.Machine
end

