-- ==== Sys2Proof/Machine/ControlFlow.lean ====
section
/-! DEFINITION. The control-flow instructions (41_control_flow R69 to R75). -/

namespace Sys2Proof.Machine

/-- `CLS` (R69). -/
def execCls (s : State) : Result := (s.setScreen (Screen.clear s.fb.width s.fb.height)).advance

/-- `RET` (R70). -/
def execRet (s : State) : Result := s.popReturn

/-- `CALL addr` (R71): the pushed value is the address after the CALL (C1). -/
def execCall (nnn : Addr12) (s : State) : Result := s.pushCall (s.pc + 2#16) (zextAddr nnn)

/-- `JP addr` (R72). -/
def execJp (nnn : Addr12) (s : State) : Result := s.goto (zextAddr nnn)

/-- `JP V0, addr` (R73): exact sum, at most 0x10FE, no mask. -/
def execJpV0 (nnn : Addr12) (s : State) : Result := s.goto (zextAddr nnn + zextByte (s.reg 0#4))

/-- `SYS addr` (R74): no operation; `nnn` has no effect. -/
def execSys (_nnn : Addr12) (s : State) : Result := s.advance

/-- `EXIT` (R75). -/
def execExit (s : State) : Result := .next s.haltExit

end Sys2Proof.Machine
end

