-- ==== Sys2Proof/Machine/Screen.lean ====
section
/-! DEFINITION. The framebuffer and the XOR sprite blitter with its collision detector (46_draw R108 to R110). -/

namespace Sys2Proof.Machine

/-- `fb[x mod FB_W][y mod FB_H]` (R8, R109): both coordinates wrap. A framebuffer without pixels reads 0. -/
def Screen.pixel (f : Screen) (x y : Nat) : Bool :=
  if h : 0 < f.width ∧ 0 < f.height then
    (f.cells[x % f.width]'(Nat.mod_lt _ h.1))[y % f.height]'(Nat.mod_lt _ h.2)
  else false

/-- The pixels of `fb[x][y] <- fb[x][y] ^ 1` at the wrapped coordinates (R109). -/
def Screen.toggleCells (f : Screen) (x y : Nat) : Vector (Vector Bool f.height) f.width :=
  if h : 0 < f.width ∧ 0 < f.height then
    f.cells.set (x % f.width)
      ((f.cells[x % f.width]'(Nat.mod_lt _ h.1)).set (y % f.height) (!f.pixel x y) (Nat.mod_lt _ h.2))
      (Nat.mod_lt _ h.1)
  else f.cells

/-- `fb[x][y] <- fb[x][y] ^ 1` at the wrapped coordinates (R109); the size is kept. -/
def Screen.toggle (f : Screen) (x y : Nat) : Screen := { f with cells := f.toggleCells x y }

/-- The framebuffer being drawn on and the collision so far (R109). -/
structure Blit where
  screen : Screen
  collided : Bool
  deriving DecidableEq, Repr

/-- One set sprite bit at `x`, `y`: note a collision with the pixel's value before the XOR, then XOR it (R110). -/
def Blit.plot (p : Blit) (x y : Nat) : Blit :=
  { screen := Screen.toggle p.screen x y, collided := p.collided || Screen.pixel p.screen x y }

/-- One sprite byte at row `y`: bit 7 at the leftmost column (R108, R109). -/
def Blit.row (p : Blit) (b : Byte) (x0 y : Nat) : Blit :=
  (List.range 8).foldl (fun q col => if b.getLsbD (7 - col) then q.plot (x0 + col) y else q) p

/-- Sprite bytes at rows `y`, `y+1`, ... (R109). -/
def Blit.rows (p : Blit) (x0 y : Nat) : List Byte → Blit
  | [] => p
  | b :: bs => Blit.rows (p.row b x0 y) x0 (y + 1) bs

end Sys2Proof.Machine
end

