-- ==== Sys2Proof/Machine/Draw.lean ====
section
/-! DEFINITION. The draw instruction (46_draw R109). -/

namespace Sys2Proof.Machine

/-- The sprite of `DRW`: `n` bytes from I on (R35, R109). -/
def State.sprite (s : State) (n : Nibble) : List Byte := Mem.readBlock s.mem s.i.toNat n.toNat

/-- The framebuffer and collision after drawing the sprite at `V[x]`, `V[y]` (R109). -/
def State.blit (s : State) (x y : RegNum) (n : Nibble) : Blit :=
  Blit.rows { screen := s.fb, collided := false } (s.reg x).toNat (s.reg y).toNat (s.sprite n)

/-- `DRW Vx, Vy, n` (R109): with n = 0 no range is checked and no byte is read. VF is written last. -/
def execDrw (x y : RegNum) (n : Nibble) (s : State) : Result :=
  if n ≠ 0#4 ∧ ¬ InRange s.i.toNat n.toNat then .next (s.raise (.memoryBounds (outAddr s.i.toNat)))
  else ((s.setScreen (s.blit x y n).screen).setReg vF (flagByte (s.blit x y n).collided)).advance

end Sys2Proof.Machine
end

