-- ==== Sys2Proof/Machine/IndexMemory.lean ====
section
/-! DEFINITION. The index and memory instructions (44_index_memory R93 to R99). -/

namespace Sys2Proof.Machine

/-- `LD I, addr` (R93). -/
def execLdI (nnn : Addr12) (s : State) : Result := (s.setI (zextAddr nnn)).advance

/-- `ADD I, Vx` (R94): modulo 4096, VF unchanged. -/
def execAddI (x : RegNum) (s : State) : Result := (s.setI (s.i + zextByte (s.reg x))).advance

/-- `LD I, F(Vx)` (R95). -/
def execLdGlyph (x : RegNum) (s : State) : Result := (s.setI (glyphAddr (s.reg x))).advance

/-- `LD B, Vx` (R96). -/
def execLdBcd (x : RegNum) (s : State) : Result :=
  s.guardRange s.i.toNat 3 (s.store s.i.toNat (bcdDigits (s.reg x))).advance

/-- `LD [I], Vx` (R97, R98): I unchanged. -/
def execStoreRegs (x : RegNum) (s : State) : Result :=
  s.guardRange s.i.toNat (x.toNat + 1) (s.store s.i.toNat (s.lowRegs x)).advance

/-- `LD Vx, [I]` (R97, R99): I unchanged. -/
def execLoadRegs (x : RegNum) (s : State) : Result :=
  s.guardRange s.i.toNat (x.toNat + 1) (s.loadLowRegs x s.i.toNat).advance

end Sys2Proof.Machine
end

