-- ==== Sys2Proof/Machine/RandomKeysTimers.lean ====
section
/-! DEFINITION. The random, key and timer instructions (45_random_keys_timers R100 to R107). -/

namespace Sys2Proof.Machine

/-- `RND Vx, kk` (R100): takes exactly one byte from the source. -/
def execRnd (x : RegNum) (kk : Byte) (s : State) : Result := (s.takeRandom.setReg x (s.randomByte &&& kk)).advance

/-- `SKP Vx` (R101, R102). -/
def execSkp (x : RegNum) (s : State) : Result := s.skipIf (keyPressed s.keys (keyIndex (s.reg x)))

/-- `SKNP Vx` (R101, R103). -/
def execSknp (x : RegNum) (s : State) : Result := s.skipIf (!keyPressed s.keys (keyIndex (s.reg x)))

/-- What `LD Vx, K` writes: the lowest pressed key to `V[x]`, nothing if none is pressed (R104). -/
def State.receiveKey (s : State) (x : RegNum) : State :=
  match lowestKey s.keys with
  | some k => s.setReg x (BitVec.ofNat 8 k)
  | none => s

/-- `LD Vx, K` (R66, R104): with no key pressed nothing is written and PC stays, with status Ok. -/
def execLdKey (x : RegNum) (s : State) : Result :=
  (s.receiveKey x).goto (if (lowestKey s.keys).isSome then s.pc + 2#16 else s.pc)

/-- `LD Vx, DT` (R105): the timer phase of the step has already run. -/
def execLdFromDT (x : RegNum) (s : State) : Result := (s.setReg x s.dt).advance

/-- `LD DT, Vx` (R106). -/
def execLdDT (x : RegNum) (s : State) : Result := (s.setDT (s.reg x)).advance

/-- `LD ST, Vx` (R107). -/
def execLdST (x : RegNum) (s : State) : Result := (s.setST (s.reg x)).advance

end Sys2Proof.Machine
end

