-- ==== Sys2Proof/Machine/Skips.lean ====
section
/-! DEFINITION. The conditional skips (42_skips R76 to R79). -/

namespace Sys2Proof.Machine

/-- `SE Vx, kk` (R76). -/
def execSeImm (x : RegNum) (kk : Byte) (s : State) : Result := s.skipIf (s.reg x == kk)

/-- `SNE Vx, kk` (R77). -/
def execSneImm (x : RegNum) (kk : Byte) (s : State) : Result := s.skipIf (s.reg x != kk)

/-- `SE Vx, Vy` (R78). -/
def execSeReg (x y : RegNum) (s : State) : Result := s.skipIf (s.reg x == s.reg y)

/-- `SNE Vx, Vy` (R79). -/
def execSneReg (x y : RegNum) (s : State) : Result := s.skipIf (s.reg x != s.reg y)

end Sys2Proof.Machine
end

