-- ==== Sys2Proof/Machine/Step.lean ====
section
/-! DEFINITION. One `step()` (40_step_cycle R65). -/

namespace Sys2Proof.Machine

/-- `Step` (R65): a Halted machine does nothing (R57); a Running one takes its snapshot, runs the timer phase,
fetches, decodes and executes; an error of the fetch or the decode leaves the timer phase standing (R59). -/
def step (s : State) : Host.Outcome State Fault Refusal :=
  match s.run with
  | .halted => .next s.stepHalted
  | .running =>
    match s.beginStep.fetchInstr with
    | .ok i => exec i s.beginStep
    | .error e => .next (s.beginStep.raise e)

/-- `s` with the table's word placed where `step` fetches its next instruction (log entry 12). -/
def State.withFetchWord (s : State) (nbits w : Nat) : State := s.placeWord (tableWord nbits w)

end Sys2Proof.Machine
end

