-- ==== Sys2Proof/Machine/HostCommands.lean ====
section
/-! DEFINITION. The host's commands and the core's outputs (60_exceptions R126 to R129, 70 R136, R137). They run
between steps, never during one (R67), so `step` performs none of them (log entry 13). -/

namespace Sys2Proof.Machine

/-- `tone_active` (R126). -/
def State.toneActive (s : State) : Bool := decide (s.st.toNat > 0)

/-- The framebuffer snapshot (R126): reading it changes nothing. -/
def State.framebuffer (s : State) : Screen := s.fb

/-- The code of an error (R113), a label only. -/
def CoreError.code : CoreError → Nat
  | .decodeError _ => 1
  | .stackOverflow => 2
  | .stackUnderflow => 3
  | .memoryBounds _ => 4
  | .romTooLarge _ => 5

/-- What `dump()` returns (R129): no memory and no framebuffer. -/
structure Snapshot where
  v : Vector Byte 16
  i : Word
  pc : Word
  sp : Byte
  stack : Vector Word 16
  dt : Byte
  st : Byte
  run : RunState
  deriving DecidableEq, Repr

/-- `dump()` (R129). -/
def State.dump (s : State) : Snapshot :=
  { v := s.v, i := s.i, pc := s.pc, sp := s.sp, stack := s.stack, dt := s.dt, st := s.st, run := s.run }

/-- `halt()` (R128): nothing else changes, and no value is returned. -/
def State.hostHalt (s : State) : State := { s with run := .halted }

/-- `Load(rom, now)` (R137): the size check first, then reset, then the copy to 0x200. -/
def State.hostLoad (s : State) (rom : List Byte) (now : Nat) : State :=
  if rom.length > Config.maxRom then s.raise (.romTooLarge rom.length)
  else { (s.hostReset now).store Config.programBase rom with status := some .ok }

/-- The host's commands (R127). `reset` and `load` are given the host's time (R136, R137). -/
inductive HostCommand where
  | load (rom : List Byte) (now : Nat)
  | reset (now : Nat)
  | step
  | halt
  | dump
  deriving DecidableEq, Repr

/-- One command of the host (R127). -/
def command : HostCommand → State → Result
  | .load rom now, s => .next (s.hostLoad rom now)
  | .reset now, s => .next (s.hostReset now)
  | .step, s => step s
  | .halt, s => .next s.hostHalt
  | .dump, s => .next s

end Sys2Proof.Machine
end

