-- ==== Sys2Proof/Safety.lean ====
section
/-! DEFINITION. The terms in which claims are made: the invariant of R28, the states a host can reach, what each
instruction may change (R25), its errors (R113) and its next PC (R62), each written from those tables and not from the
meanings. -/

namespace Sys2Proof.Machine

/-! ## The invariant -/

/-- What R28 says of every reachable state, with what it rests on: every stack entry is at most 0x1000 (R71), memory
is in its canonical form, the periods are at least 1 (R121), and the framebuffer has a pixel (log entry 15). -/
def State.Inv (s : State) : Prop :=
  s.i.toNat ≤ 0xFFF ∧ s.sp.toNat ≤ 16 ∧ s.pc.toNat ≤ 0x10FE ∧ (∀ w ∈ s.stack.toList, w.toNat ≤ 0x1000) ∧
    Mem.wf s.mem ∧ 1 ≤ s.delayPeriod ∧ 1 ≤ s.soundPeriod ∧
    1 ≤ s.fb.width ∧ 1 ≤ s.fb.height

/-- A machine constructed at host time `now` with the given parameters (R5), by a host that will supply the given
inputs and random bytes (R135). `State.reset` is the one constructed at time 0 with a framebuffer of 64 by 32 and
nothing fixed. -/
def State.constructed (now fbW fbH delayPeriod soundPeriod : Nat) (inputs : List StepInput) (randoms : List Byte) :
    State :=
  { State.reset with
    fb := Screen.clear fbW fbH
    gateD := now, gateS := now, delayPeriod := delayPeriod, soundPeriod := soundPeriod, inputs := inputs,
    randoms := randoms }

/-- The states a host can bring the machine to (R67, R127): construct it, issue commands, and between commands fix
other inputs and random bytes. -/
inductive Reachable : State → Prop where
  | construct (now w h pd ps : Nat) (js : List StepInput) (rs : List Byte) (hw : 1 ≤ w) (hh : 1 ≤ h) (hd : 1 ≤ pd)
      (hs : 1 ≤ ps) : Reachable (State.constructed now w h pd ps js rs)
  | command (c : HostCommand) (s t : State) (hs : Reachable s) (hc : command c s = .next t) : Reachable t
  | supply (s : State) (js : List StepInput) (rs : List Byte) (hs : Reachable s) :
      Reachable { s with inputs := js, randoms := rs }

/-! ## Footprints: the write columns of R25 -/

/-- What an instruction may write, besides PC, `run` and the status. -/
structure Footprint where
  regs : List RegNum := []
  index : Bool := false
  entries : List Nat := []
  sp : Bool := false
  delay : Bool := false
  sound : Bool := false
  screen : Bool := false
  memory : List Nat := []
  random : Bool := false

/-- Nothing outside the footprint differs between `s` and `t`. The gates, the periods, the size of the framebuffer, the
keypad snapshot and the host's inputs are in no footprint. -/
def FramedBy (f : Footprint) (s t : State) : Prop :=
  (∀ r, r ∉ f.regs → t.reg r = s.reg r) ∧
  (f.index = false → t.i = s.i) ∧
  (∀ (k : Nat) (h : k < 16), k ∉ f.entries → t.stack[k] = s.stack[k]) ∧
  (f.sp = false → t.sp = s.sp) ∧
  (f.delay = false → t.dt = s.dt) ∧
  (f.sound = false → t.st = s.st) ∧
  (f.screen = false → t.fb = s.fb) ∧ t.fb.width = s.fb.width ∧ t.fb.height = s.fb.height ∧
  (∀ a, a ∉ f.memory → Mem.read t.mem a = Mem.read s.mem a) ∧
  (f.random = false → t.randoms = s.randoms ∧ t.drawn = s.drawn) ∧
  t.gateD = s.gateD ∧ t.gateS = s.gateS ∧ t.delayPeriod = s.delayPeriod ∧ t.soundPeriod = s.soundPeriod ∧
  t.keys = s.keys ∧ t.inputs = s.inputs ∧ t.calls = s.calls

/-- The addresses `base`, ..., `base + len - 1`. -/
def addrRange (base len : Nat) : List Nat := (List.range len).map (base + ·)

/-- The write columns of the access matrix R25, with the addresses of R35. -/
def footprint (i : Instr) (s : State) : Footprint :=
  match i with
  | .cls => { screen := true }
  | .ret => { sp := true }
  | .call _ => { sp := true, entries := [s.sp.toNat] }
  | .sys _ | .exit | .jp _ | .jpV0 _ => {}
  | .seImm _ _ | .sneImm _ _ | .seReg _ _ | .sneReg _ _ | .skp _ | .sknp _ => {}
  | .ldImm x _ | .ldReg x _ | .addImm x _ | .orReg x _ | .andReg x _ | .xorReg x _ => { regs := [x] }
  | .addReg x _ | .subReg x _ | .subnReg x _ | .shr x | .shl x => { regs := [x, vF] }
  | .ldI _ | .addI _ | .ldGlyph _ => { index := true }
  | .ldBcd _ => { memory := addrRange s.i.toNat 3 }
  | .storeRegs x => { memory := addrRange s.i.toNat (x.toNat + 1) }
  | .loadRegs x => { regs := (List.range (x.toNat + 1)).map (BitVec.ofNat 4) }
  | .rnd x _ => { regs := [x], random := true }
  | .ldKey x | .ldFromDT x => { regs := [x] }
  | .ldDT _ => { delay := true }
  | .ldST _ => { sound := true }
  | .drw _ _ _ => { screen := true, regs := [vF] }

/-- `exec i` at `s` completes normally (status Ok, still in the same run state), changes nothing outside `f`, and
leaves a state of which `P` holds. -/
def Completes (i : Instr) (s : State) (f : Footprint) (P : State → Prop) : Prop :=
  ∃ t, exec i s = .next t ∧ t.status = some .ok ∧ t.run = s.run ∧ FramedBy f s t ∧ P t

/-- The state an error leaves (R114): `s`, halted, with the error as the returned status. -/
def erred (s : State) (e : CoreError) : State := { s with run := .halted, status := some (.error e) }

/-! ## Errors and the next PC -/

/-- The state in which a Running step fetches and executes (R58, R59, R121): the keypad snapshot is the host's, one
input is taken, and each timer has had its phase: its gate fires exactly when its period has passed, moves to `now`,
and lowers a nonzero counter by one. -/
def atFetch (s : State) : State :=
  { s with
    keys := s.input.keys
    inputs := s.inputs.tail
    calls := s.calls + 1
    dt := if s.gateD ≤ s.input.now ∧ s.delayPeriod ≤ s.input.now - s.gateD ∧ s.dt ≠ 0#8 then s.dt - 1#8 else s.dt
    gateD := if s.gateD ≤ s.input.now ∧ s.delayPeriod ≤ s.input.now - s.gateD then s.input.now else s.gateD
    st := if s.gateS ≤ s.input.now ∧ s.soundPeriod ≤ s.input.now - s.gateS ∧ s.st ≠ 0#8 then s.st - 1#8 else s.st
    gateS := if s.gateS ≤ s.input.now ∧ s.soundPeriod ≤ s.input.now - s.gateS then s.input.now else s.gateS }

/-- The one error condition of an instruction (R113, R117), if it holds in `s`. -/
def errorOf (i : Instr) (s : State) : Option CoreError :=
  match i with
  | .call _ => if s.sp.toNat = 16 then some .stackOverflow else none
  | .ret => if s.sp.toNat = 0 then some .stackUnderflow else none
  | .ldBcd _ => if s.i.toNat > 0xFFD then some (.memoryBounds (max s.i.toNat 0x1000)) else none
  | .storeRegs x => if s.i.toNat + x.toNat > 0xFFF then some (.memoryBounds (max s.i.toNat 0x1000)) else none
  | .loadRegs x => if s.i.toNat + x.toNat > 0xFFF then some (.memoryBounds (max s.i.toNat 0x1000)) else none
  | .drw _ _ n =>
    if n.toNat ≥ 1 ∧ s.i.toNat + n.toNat - 1 > 0xFFF then some (.memoryBounds (max s.i.toNat 0x1000)) else none
  | _ => none

/-- PC + 2 or PC + 4 (R62). -/
def skipTarget (s : State) (c : Prop) [Decidable c] : Word := if c then s.pc + 4#16 else s.pc + 2#16

/-- Key `k` of the snapshot is pressed (R58). -/
abbrev Pressed (s : State) (k : Nat) : Prop := ∃ h : k < 16, s.keys[k] = true

/-- Some key of the snapshot is pressed. -/
abbrev AnyPressed (s : State) : Prop := ∃ k, k < 16 ∧ Pressed s k

/-- The PC update table R62, for an instruction that raises no error. -/
def nextPc (i : Instr) (s : State) : Word :=
  match i with
  | .seImm x kk => skipTarget s (s.reg x = kk)
  | .sneImm x kk => skipTarget s (s.reg x ≠ kk)
  | .seReg x y => skipTarget s (s.reg x = s.reg y)
  | .sneReg x y => skipTarget s (s.reg x ≠ s.reg y)
  | .skp x => skipTarget s (Pressed s ((s.reg x).toNat % 16))
  | .sknp x => skipTarget s (¬ Pressed s ((s.reg x).toNat % 16))
  | .jp nnn => nnn.setWidth 16
  | .jpV0 nnn => BitVec.ofNat 16 (nnn.toNat + (s.reg 0#4).toNat)
  | .call nnn => nnn.setWidth 16
  | .ret => s.stack[s.sp.toNat - 1]?.getD 0
  | .exit => s.pc
  | .ldKey _ => if AnyPressed s then s.pc + 2#16 else s.pc
  | _ => s.pc + 2#16

/-! ## The sprite -/

/-- Some set bit of the `n` sprite bytes at I lands on column `px`, row `py` when `DRW Vx, Vy, n` draws it (R109). -/
def Covers (s : State) (x y : RegNum) (n : Nibble) (px py : Nat) : Prop :=
  ∃ row col, row < n.toNat ∧ col < 8 ∧ (Mem.read s.mem (s.i.toNat + row)).getLsbD (7 - col) = true ∧
    ((s.reg x).toNat + col) % s.fb.width = px ∧ ((s.reg y).toNat + row) % s.fb.height = py

/-- The pixels the set bits of the sprite land on when `DRW Vx, Vy, n` draws it, in the order drawn (R109). A pixel is
listed once for every set bit that lands on it; more than once only where `FB_W < 8` or `FB_H < n` (R110). -/
def landings (s : State) (x y : RegNum) (n : Nibble) : List (Nat × Nat) :=
  (List.range n.toNat).flatMap fun row =>
    (List.range 8).filterMap fun col =>
      if (Mem.read s.mem (s.i.toNat + row)).getLsbD (7 - col) then
        some (((s.reg x).toNat + col) % s.fb.width, ((s.reg y).toNat + row) % s.fb.height)
      else none

/-! ## Sequences of instructions -/

/-- Execute a list of instructions one after another, from the meanings alone. -/
def execAll : List Instr → State → Result
  | [], s => .next s
  | i :: is, s =>
    match exec i s with
    | .next t => execAll is t
    | .fault r => .fault r
    | .refused r => .refused r

/-- A counter and its gate after timer phases at the given times (R121). -/
def tickAll (period : Nat) : List Nat → Byte × Nat → Byte × Nat
  | [], p => p
  | now :: ts, p => tickAll period ts (tickCounter period now p.2 p.1, tickGate period now p.2)

/-- `s` and `t` agree in all but the framebuffer, of whatever sizes. -/
def SameButScreen (s t : State) : Prop := { s with fb := t.fb } = t

/-- `s` and `t` agree in all but stack entries that hold no live frame (R15). -/
def SameButDeadEntries (s t : State) : Prop :=
  { s with stack := t.stack } = t ∧ ∀ (k : Nat) (h : k < 16), k < s.sp.toNat → t.stack[k] = s.stack[k]

end Sys2Proof.Machine
end

