-- ==== Sys2Proof/Certificates/Slice0/Obligations.lean ====
section
/-! DEFINITION. The statements about the machine, for the provers. Each docstring names the rules of spec/ it
formalises; where a clause rests on a choice the spec marks as its own (a decision D<n> of 92_eei_decisions.md, or a
`[derived]` mark), or on the model's own (a log entry), the docstring says so. -/

open Sys2Proof Sys2Proof.Machine

/-! ## Encoding -/

/-- One word of each family, written out from R53 (spec's choice D37), decodes to its instruction. -/
def Obligations.SampleWordsDecode : Prop :=
  decode 0x00E0 = .ok .cls ∧ decode 0x00EE = .ok .ret ∧ decode 0x00FD = .ok .exit ∧ decode 0x0123 = .ok (.sys 0x123) ∧
  decode 0x2ABC = .ok (.call 0xABC) ∧ decode 0x3310 = .ok (.seImm 3 0x10) ∧ decode 0x6005 = .ok (.ldImm 0 0x05) ∧
  decode 0x8127 = .ok (.subnReg 1 2) ∧ decode 0xA300 = .ok (.ldI 0x300) ∧ decode 0xF265 = .ok (.loadRegs 2) ∧
  decode 0xC30F = .ok (.rnd 3 0x0F) ∧ decode 0xE19E = .ok (.skp 1) ∧ decode 0xD125 = .ok (.drw 1 2 5)

/-- R49, R53, R55 (encodings: D37; ignored fields: D8): every well-formed instruction, at every value of every
operand, is what its word decodes to. -/
def Obligations.DecodeEncodeRoundTrip : Prop :=
  ∀ i : Instr, i.WellFormed → decode (encode i) = .ok i

/-- R51, R55 (D8): the word of what a word decodes to is that word with the ignored fields 0, so decoding loses no
other bit; and nothing ill-formed is decoded. -/
def Obligations.DecodedInstructionEncodesBack : Prop :=
  ∀ (w : Word) (i : Instr), decode w = .ok i → i.WellFormed ∧ encode i = canonicalWord w

/-- R52 (derived from R49): the words that decode to no operation, exactly. -/
def Obligations.DecodeErrorsAreExactlyThese : Prop :=
  ∀ w : Word, (∃ r, decode w = .error r) ↔
    (fieldO w = 0x8#4 ∧ fieldN w ∈ [0x8#4, 0x9#4, 0xA#4, 0xB#4, 0xC#4, 0xD#4, 0xF#4]) ∨
    (fieldO w = 0xE#4 ∧ fieldKK w ∉ [0x9E#8, 0xA1#8]) ∨
    (fieldO w = 0xF#4 ∧ fieldKK w ∉ [0x07#8, 0x0A#8, 0x15#8, 0x18#8, 0x1E#8, 0x29#8, 0x33#8, 0x55#8, 0x65#8])

/-- R53 (every pattern but those of 6xkk and 7xkk: the spec's choice D37): a decoded word matches the `match` and `mask` of its own row of the opcode table, and a word decoded to SYS
is none of the three words of rows 1, 2 and 7. -/
def Obligations.DecodedWordMatchesItsRow : Prop :=
  ∀ (w : Word) (i : Instr), decode w = .ok i →
    w &&& i.rowMask = i.rowMatch ∧ ((∃ nnn, i = .sys nnn) → w ≠ 0x00E0 ∧ w ≠ 0x00EE ∧ w ≠ 0x00FD)

/-! ## Reset, construction and the host's commands -/

/-- R5, R26, R27, R31, R135: the constructed machine. That it is Running, in the reset state, rests on the spec's choice
D34, the stack entries on D21, the glyph bytes on D19, the zero memory on D20; the gates' value is the model's time
origin (log entry 6) and is not stated here. -/
def Obligations.ConstructedMachineValues : Prop :=
  (∀ r, State.reset.reg r = 0) ∧ State.reset.i = 0 ∧ State.reset.sp = 0 ∧ State.reset.dt = 0 ∧ State.reset.st = 0 ∧
  State.reset.pc = 0x200 ∧ State.reset.run = .running ∧
  State.reset.fb.width = 64 ∧ State.reset.fb.height = 32 ∧ (∀ x y, State.reset.fb.pixel x y = false) ∧
  (∀ (k : Nat) (h : k < 16), State.reset.stack[k] = 0) ∧
  (∀ (a : Nat) (h : a < 80), Mem.read State.reset.mem a = glyphs[a]) ∧
  (∀ a, 0x050 ≤ a → Mem.read State.reset.mem a = 0) ∧ State.reset.toneActive = false

/-- R136 (stack D21, memory D20, gates, periods and framebuffer size D22, glyph bytes D19): what `reset()` leaves, from every
state. -/
def Obligations.ResetCommandRestores : Prop :=
  ∀ (s : State) (now : Nat),
    (∀ r, (s.hostReset now).reg r = 0) ∧ (s.hostReset now).i = 0 ∧ (s.hostReset now).sp = 0 ∧
    (s.hostReset now).dt = 0 ∧ (s.hostReset now).st = 0 ∧ (s.hostReset now).pc = 0x200 ∧
    (s.hostReset now).run = .running ∧ (∀ x y, (s.hostReset now).fb.pixel x y = false) ∧
    (∀ (k : Nat) (h : k < 16), (s.hostReset now).stack[k] = 0) ∧
    (s.hostReset now).gateD = now ∧ (s.hostReset now).gateS = now ∧
    (s.hostReset now).delayPeriod = s.delayPeriod ∧ (s.hostReset now).soundPeriod = s.soundPeriod ∧
    (s.hostReset now).fb.width = s.fb.width ∧ (s.hostReset now).fb.height = s.fb.height ∧
    (∀ (a : Nat) (h : a < 80), Mem.read (s.hostReset now).mem a = glyphs[a]) ∧
    (∀ a, 0x050 ≤ a → Mem.read (s.hostReset now).mem a = Mem.read s.mem a)

/-- R137 (the spec's choices: zero stack entries D21, glyph bytes D19, memory kept D20, gates at `now` and kept periods
and framebuffer size D22, the failed load D23): a ROM that fits is copied to 0x200 after a reset, bytes outside it and
the glyph table are kept, and the status is Ok; one that does not halts the machine and changes nothing else. -/
def Obligations.LoadCopiesTheRomOrHalts : Prop :=
  ∀ (s : State) (rom : List Byte) (now : Nat),
    (rom.length ≤ 3584 →
      ∃ t, s.hostLoad rom now = t ∧ t.status = some .ok ∧ t.run = .running ∧ t.pc = 0x200 ∧ t.i = 0 ∧ t.sp = 0 ∧
        t.dt = 0 ∧ t.st = 0 ∧ t.gateD = now ∧ t.gateS = now ∧ t.delayPeriod = s.delayPeriod ∧ t.soundPeriod = s.soundPeriod ∧
        t.fb.width = s.fb.width ∧ t.fb.height = s.fb.height ∧ (∀ r, t.reg r = 0) ∧
        (∀ x y, t.fb.pixel x y = false) ∧ (∀ (k : Nat) (h : k < 16), t.stack[k] = 0) ∧
        (∀ (j : Nat) (h : j < rom.length), Mem.read t.mem (0x200 + j) = rom[j]) ∧
        (∀ (a : Nat) (h : a < 80), Mem.read t.mem a = glyphs[a]) ∧
        (∀ a, 0x050 ≤ a → (a < 0x200 ∨ 0x200 + rom.length ≤ a) → Mem.read t.mem a = Mem.read s.mem a)) ∧
    (3584 < rom.length → s.hostLoad rom now = erred s (.romTooLarge rom.length))

/-- R128 (D24), R129 (D25), R126: `halt()` sets `run` only; `dump()` changes nothing and returns the registers; the
tone is active exactly while ST > 0. -/
def Obligations.HaltDumpAndTone : Prop :=
  ∀ s : State,
    command .halt s = .next { s with run := .halted } ∧ command .dump s = .next s ∧
    s.dump = { v := s.v, i := s.i, pc := s.pc, sp := s.sp, stack := s.stack, dt := s.dt, st := s.st, run := s.run } ∧
    (s.toneActive = true ↔ 0 < s.st.toNat) ∧ s.framebuffer = s.fb

/-! ## The step -/

/-- R57 (inputs: D1): a step of a Halted machine changes nothing, reads no input, and returns Halted. -/
def Obligations.HaltedStepDoesNothing : Prop :=
  ∀ s : State, s.run = .halted → step s = .next { s with status := some .halted }

/-- R65, with R58, R59, R60, R61, R121 (fire rule: D17): where the two bytes at PC decode to `i`, a Running step is
`exec i` at `atFetch s`, the state with the host's keypad snapshot, one input taken and both timer phases done. -/
def Obligations.StepRunsDecodedInstruction : Prop :=
  ∀ (s : State) (i : Instr), s.run = .running → s.pc.toNat ≤ 0xFFE →
    decode (wordOfBytes (Mem.read s.mem s.pc.toNat) (Mem.read s.mem (s.pc.toNat + 1))) = .ok i →
    step s = exec i (atFetch s)

/-- R60 (D3), R114 (D5): a fetch with PC > 0xFFE halts with `MemoryBoundsError(max(PC, 0x1000))`; the timer phase
stands and nothing else changes. -/
def Obligations.FetchPastTheEndHalts : Prop :=
  ∀ s : State, s.run = .running → 0xFFE < s.pc.toNat →
    step s = .next (erred (atFetch s) (.memoryBounds (max s.pc.toNat 0x1000)))

/-- R61, R114 (D5): a word that matches no operation halts with `DecodeError(w)`; the timer phase stands and nothing
else changes. -/
def Obligations.IllegalWordHalts : Prop :=
  ∀ (s : State) (w : Word) (r : DecodeReject), s.run = .running → s.pc.toNat ≤ 0xFFE →
    w = Mem.read s.mem s.pc.toNat ++ Mem.read s.mem (s.pc.toNat + 1) → decode w = .error r →
    step s = .next (erred (atFetch s) (.decodeError w))

/-- R122 (derived from R121): over any sequence of timer phases the decrements number at most one per period of time
the gate has moved, and at most one per phase; the counter never rises, so never wraps below 0. -/
def Obligations.CounterFallsAtMostOncePerPeriod : Prop :=
  ∀ (period : Nat) (times : List Nat) (c : Byte) (gate : Nat),
    (tickAll period times (c, gate)).1.toNat ≤ c.toNat ∧ gate ≤ (tickAll period times (c, gate)).2 ∧
    (c.toNat - (tickAll period times (c, gate)).1.toNat) * period ≤ (tickAll period times (c, gate)).2 - gate ∧
    c.toNat - (tickAll period times (c, gate)).1.toNat ≤ times.length

/-- R43 (derived; D33), R141: a store over the next instruction's word is what the next step fetches. -/
def Obligations.StoredWordIsFetchedNext : Prop :=
  ∀ (s : State) (x : RegNum), s.pc.toNat ≤ 0xFFC → s.i.toNat = s.pc.toNat + 2 → 1 ≤ x.toNat →
    s.i.toNat + x.toNat ≤ 0xFFF →
    ∃ t, exec (.storeRegs x) s = .next t ∧ t.pc.toNat = s.pc.toNat + 2 ∧ t.fetchWord = s.reg 0#4 ++ s.reg 1#4

/-! ## Control flow -/

/-- R69. -/
def Obligations.ClsClearsTheScreen : Prop :=
  ∀ s : State, Completes .cls s { screen := true } (fun t => t.pc = s.pc + 2#16 ∧ ∀ x y, t.fb.pixel x y = false)

/-- R70: with a live frame RET pops it into PC and clears no entry (the spec's choice D21); with none it raises
StackUnderflow and changes nothing else (D5). SP > 16, which R16 excludes, is left out (log entry 8). -/
def Obligations.RetPopsTheReturnAddress : Prop :=
  ∀ s : State,
    (∀ (h : s.sp.toNat - 1 < 16), s.sp.toNat ≠ 0 →
      Completes .ret s { sp := true } (fun t => t.sp.toNat = s.sp.toNat - 1 ∧ t.pc = s.stack[s.sp.toNat - 1])) ∧
    (s.sp.toNat = 0 → exec .ret s = .next (erred s .stackUnderflow))

/-- R71: with SP < 16 CALL pushes PC + 2 and jumps; with SP = 16 it raises StackOverflow and changes nothing else (the
spec's choice D5). SP > 16, which R16 excludes, is left out (log entry 8). -/
def Obligations.CallPushesTheNextAddress : Prop :=
  ∀ (s : State) (nnn : Addr12),
    (∀ (h : s.sp.toNat < 16),
      Completes (.call nnn) s { sp := true, entries := [s.sp.toNat] }
        (fun t => t.stack[s.sp.toNat] = s.pc + 2#16 ∧ t.sp.toNat = s.sp.toNat + 1 ∧ t.pc.toNat = nnn.toNat)) ∧
    (s.sp.toNat = 16 → exec (.call nnn) s = .next (erred s .stackOverflow))

/-- R71's quoted property, from R70 and R71: CALLs nested to any depth the stack holds, then as many RETs, return to
the instruction after the first CALL with SP restored. -/
def Obligations.NestedCallsReturn : Prop :=
  ∀ (s : State) (targets : List Addr12), targets ≠ [] → s.sp.toNat + targets.length ≤ 16 →
    ∃ t, execAll (targets.map Instr.call ++ List.replicate targets.length .ret) s = .next t ∧
      t.pc = s.pc + 2#16 ∧ t.sp = s.sp ∧ t.run = s.run

/-- R72. -/
def Obligations.JumpSetsPc : Prop :=
  ∀ (s : State) (nnn : Addr12), Completes (.jp nnn) s {} (fun t => t.pc.toNat = nnn.toNat)

/-- R73 (no mask: D28): the exact sum, always with V0. -/
def Obligations.JumpV0AddsV0 : Prop :=
  ∀ (s : State) (nnn : Addr12), Completes (.jpV0 nnn) s {} (fun t => t.pc.toNat = nnn.toNat + (s.reg 0#4).toNat)

/-- R74 (which words are SYS: D6): nothing but PC + 2. -/
def Obligations.SysOnlyAdvances : Prop :=
  ∀ (s : State) (nnn : Addr12),
    Completes (.sys nnn) s {} (fun t => t = { s with pc := s.pc + 2#16, status := some .ok })

/-- R75 (its word: D7), R57: EXIT halts with status Exited and PC unchanged, and the next step is a no-op. -/
def Obligations.ExitHalts : Prop :=
  ∀ s : State, ∃ t, exec .exit s = .next t ∧ t = { s with run := .halted, status := some .exited } ∧
    step t = .next { t with status := some .halted }

/-! ## Skips -/

/-- R76, R77. -/
def Obligations.SkipOnImmediate : Prop :=
  ∀ (s : State) (x : RegNum) (kk : Byte),
    Completes (.seImm x kk) s {} (fun t => t.pc = if s.reg x = kk then s.pc + 4#16 else s.pc + 2#16) ∧
    Completes (.sneImm x kk) s {} (fun t => t.pc = if s.reg x = kk then s.pc + 2#16 else s.pc + 4#16)

/-- R78, R79 (the ignored nibble: D8): the skip, and that every `n` decodes to it. -/
def Obligations.SkipOnRegister : Prop :=
  ∀ (s : State) (x y : RegNum) (n : Nibble),
    Completes (.seReg x y) s {} (fun t => t.pc = if s.reg x = s.reg y then s.pc + 4#16 else s.pc + 2#16) ∧
    Completes (.sneReg x y) s {} (fun t => t.pc = if s.reg x = s.reg y then s.pc + 2#16 else s.pc + 4#16) ∧
    decode (0x5#4 ++ x ++ y ++ n) = .ok (.seReg x y) ∧ decode (0x9#4 ++ x ++ y ++ n) = .ok (.sneReg x y)

/-! ## Loads and arithmetic -/

/-- R82, R83, R84: no flag is written, also on overflow; with the two encodings the source itself shows. -/
def Obligations.LoadsAndImmediateAdd : Prop :=
  ∀ (s : State) (x y : RegNum) (kk : Byte),
    Completes (.ldImm x kk) s { regs := [x] } (fun t => t.reg x = kk ∧ t.pc = s.pc + 2#16) ∧
    Completes (.ldReg x y) s { regs := [x] } (fun t => t.reg x = s.reg y ∧ t.pc = s.pc + 2#16) ∧
    Completes (.addImm x kk) s { regs := [x] }
      (fun t => (t.reg x).toNat = ((s.reg x).toNat + kk.toNat) % 256 ∧ t.pc = s.pc + 2#16) ∧
    decode (0x6#4 ++ x ++ kk) = .ok (.ldImm x kk) ∧ decode (0x7#4 ++ x ++ kk) = .ok (.addImm x kk)

/-- R85, R86, R87: bit by bit, and no flag is written. -/
def Obligations.BitwiseOperations : Prop :=
  ∀ (s : State) (x y : RegNum),
    Completes (.orReg x y) s { regs := [x] } (fun t => t.pc = s.pc + 2#16 ∧
      ∀ k, k < 8 → (t.reg x).getLsbD k = ((s.reg x).getLsbD k || (s.reg y).getLsbD k)) ∧
    Completes (.andReg x y) s { regs := [x] } (fun t => t.pc = s.pc + 2#16 ∧
      ∀ k, k < 8 → (t.reg x).getLsbD k = ((s.reg x).getLsbD k && (s.reg y).getLsbD k)) ∧
    Completes (.xorReg x y) s { regs := [x] } (fun t => t.pc = s.pc + 2#16 ∧
      ∀ k, k < 8 → (t.reg x).getLsbD k = ((s.reg x).getLsbD k ^^ (s.reg y).getLsbD k))

/-- R88: the sum modulo 256 and the carry, both of the values before; with x = F the flag is VF's final value, which is
the spec's choice D9 (R81). -/
def Obligations.AddSetsTheCarry : Prop :=
  ∀ (s : State) (x y : RegNum),
    Completes (.addReg x y) s { regs := [x, vF] } (fun t => t.pc = s.pc + 2#16 ∧
      (x ≠ vF → (t.reg x).toNat = ((s.reg x).toNat + (s.reg y).toNat) % 256) ∧
      t.reg vF = if (s.reg x).toNat + (s.reg y).toNat > 255 then 1#8 else 0#8)

/-- R89, R90: the difference modulo 256 and "no borrow"; with x = F the flag is VF's final value, which is the spec's
choice D9 (R81). -/
def Obligations.SubtractionsSetNoBorrow : Prop :=
  ∀ (s : State) (x y : RegNum),
    Completes (.subReg x y) s { regs := [x, vF] } (fun t => t.pc = s.pc + 2#16 ∧
      (x ≠ vF → ((t.reg x).toNat : Int) = ((s.reg x).toNat - (s.reg y).toNat : Int) % 256) ∧
      t.reg vF = if (s.reg x).toNat ≥ (s.reg y).toNat then 1#8 else 0#8) ∧
    Completes (.subnReg x y) s { regs := [x, vF] } (fun t => t.pc = s.pc + 2#16 ∧
      (x ≠ vF → ((t.reg x).toNat : Int) = ((s.reg y).toNat - (s.reg x).toNat : Int) % 256) ∧
      t.reg vF = if (s.reg y).toNat ≥ (s.reg x).toNat then 1#8 else 0#8)

/-- R91, R92: logical shifts by one; VF receives the bit that was shifted out, also with x = F, which is the spec's
choice D9 (R81). That y is no operand: D8 (R51). -/
def Obligations.ShiftsSetTheLostBit : Prop :=
  ∀ (s : State) (x : RegNum),
    Completes (.shr x) s { regs := [x, vF] } (fun t => t.pc = s.pc + 2#16 ∧
      (x ≠ vF → (t.reg x).toNat = (s.reg x).toNat / 2) ∧ (t.reg vF).toNat = (s.reg x).toNat % 2) ∧
    Completes (.shl x) s { regs := [x, vF] } (fun t => t.pc = s.pc + 2#16 ∧
      (x ≠ vF → (t.reg x).toNat = (s.reg x).toNat * 2 % 256) ∧ (t.reg vF).toNat = (s.reg x).toNat / 128)

/-! ## Index and memory -/

/-- R93, R95. -/
def Obligations.IndexLoads : Prop :=
  ∀ (s : State) (nnn : Addr12) (x : RegNum),
    Completes (.ldI nnn) s { index := true } (fun t => t.i.toNat = nnn.toNat ∧ t.pc = s.pc + 2#16) ∧
    Completes (.ldGlyph x) s { index := true } (fun t => t.i.toNat = (s.reg x).toNat * 5 ∧ t.pc = s.pc + 2#16)

/-- R94 (VF unchanged: D14): modulo 4096. -/
def Obligations.AddToIndexWraps : Prop :=
  ∀ (s : State) (x : RegNum),
    Completes (.addI x) s { index := true }
      (fun t => t.i.toNat = (s.i.toNat + (s.reg x).toNat) % 4096 ∧ t.pc = s.pc + 2#16)

/-- R96 (its bounds: D12; the unchanged rest on the error: D5): the three decimal digits, the hundreds at the lowest address. -/
def Obligations.BcdStoresDigits : Prop :=
  ∀ (s : State) (x : RegNum),
    (s.i.toNat ≤ 0xFFD →
      Completes (.ldBcd x) s { memory := [s.i.toNat, s.i.toNat + 1, s.i.toNat + 2] } (fun t => t.pc = s.pc + 2#16 ∧
        (Mem.read t.mem s.i.toNat).toNat = (s.reg x).toNat / 100 ∧
        (Mem.read t.mem (s.i.toNat + 1)).toNat = (s.reg x).toNat / 10 % 10 ∧
        (Mem.read t.mem (s.i.toNat + 2)).toNat = (s.reg x).toNat % 10)) ∧
    (0xFFD < s.i.toNat → exec (.ldBcd x) s = .next (erred s (.memoryBounds (max s.i.toNat 0x1000))))

/-- R98: V0..Vx to I.., I unchanged (the spec's choice D13, R97); past 0xFFF nothing is written and PC is kept (D5). -/
def Obligations.StoreRegistersToMemory : Prop :=
  ∀ (s : State) (x : RegNum),
    (s.i.toNat + x.toNat ≤ 0xFFF →
      Completes (.storeRegs x) s { memory := addrRange s.i.toNat (x.toNat + 1) } (fun t => t.pc = s.pc + 2#16 ∧
        ∀ r : RegNum, r.toNat ≤ x.toNat → Mem.read t.mem (s.i.toNat + r.toNat) = s.reg r)) ∧
    (0xFFF < s.i.toNat + x.toNat → exec (.storeRegs x) s = .next (erred s (.memoryBounds (max s.i.toNat 0x1000))))

/-- R99: I.. to V0..Vx, I (the spec's choice D13, R97) and the registers above Vx unchanged; past 0xFFF, which is checked
for loads too (90_conflicts C6), no register is written and PC is kept (D5). -/
def Obligations.LoadRegistersFromMemory : Prop :=
  ∀ (s : State) (x : RegNum),
    (s.i.toNat + x.toNat ≤ 0xFFF →
      Completes (.loadRegs x) s { regs := (List.range (x.toNat + 1)).map (BitVec.ofNat 4) } (fun t =>
        t.pc = s.pc + 2#16 ∧
        ∀ r : RegNum, t.reg r = if r.toNat ≤ x.toNat then Mem.read s.mem (s.i.toNat + r.toNat) else s.reg r)) ∧
    (0xFFF < s.i.toNat + x.toNat → exec (.loadRegs x) s = .next (erred s (.memoryBounds (max s.i.toNat 0x1000))))

/-- R98, R99 together, resting on the spec's choice D13 that neither changes I: registers stored and then loaded again, whatever the registers held in between, are restored. -/
def Obligations.StoreThenLoadRestores : Prop :=
  ∀ (s : State) (x : RegNum) (v : Vector Byte 16), s.i.toNat + x.toNat ≤ 0xFFF →
    ∃ t u, exec (.storeRegs x) s = .next t ∧ exec (.loadRegs x) { t with v := v } = .next u ∧
      ∀ r : RegNum, u.reg r = if r.toNat ≤ x.toNat then s.reg r else v[r.toNat]

/-! ## Random, keys and timers -/

/-- R100 (one byte per RND, any u8: D31): the byte is the host's next one, or a free value; it is masked by kk. -/
def Obligations.RndTakesOneByte : Prop :=
  ∀ (s : State) (x : RegNum) (kk : Byte),
    Completes (.rnd x kk) s { regs := [x], random := true } (fun t => t.pc = s.pc + 2#16 ∧
      (∀ r rs, s.randoms = r :: rs → t.reg x = r &&& kk ∧ t.randoms = rs) ∧
      (s.randoms = [] → t.reg x = Config.freeRandom s.drawn &&& kk ∧ t.randoms = []) ∧ t.drawn = s.drawn + 1 ∧
      (kk = 0 → t.reg x = 0))

/-- R102, R103 (key index: R101, D15). -/
def Obligations.SkipOnKey : Prop :=
  ∀ (s : State) (x : RegNum) (k : Nat) (h : k < 16), k = (s.reg x).toNat % 16 →
    Completes (.skp x) s {} (fun t => t.pc = if s.keys[k] = true then s.pc + 4#16 else s.pc + 2#16) ∧
    Completes (.sknp x) s {} (fun t => t.pc = if s.keys[k] = true then s.pc + 2#16 else s.pc + 4#16)

/-- R104 (lowest key, level: D16; status Ok: D36): the lowest pressed key is received; with none pressed nothing but
the status is written and PC stays. -/
def Obligations.KeyWaitReceivesLowestKey : Prop :=
  ∀ (s : State) (x : RegNum),
    (∀ (k : Nat) (h : k < 16), s.keys[k] = true → (∀ (j : Nat) (hj : j < k), s.keys[j] = false) →
      Completes (.ldKey x) s { regs := [x] } (fun t => (t.reg x).toNat = k ∧ t.pc = s.pc + 2#16)) ∧
    ((∀ (k : Nat) (h : k < 16), s.keys[k] = false) →
      Completes (.ldKey x) s {} (fun t => t = { s with status := some .ok }))

/-- R105: DT is copied, and in a whole step as the timer phase of that step left it: `atFetch`, by R59 and R121 with the
fire rule D17 and the step's input D1 (the spec's choices); where the host has fixed no input it is a free value (log
entry 2). -/
def Obligations.DelayTimerIsRead : Prop :=
  (∀ (s : State) (x : RegNum),
    Completes (.ldFromDT x) s { regs := [x] } (fun t => t.reg x = s.dt ∧ t.pc = s.pc + 2#16)) ∧
  (∀ (s : State) (x : RegNum), s.run = .running → s.pc.toNat ≤ 0xFFE → decode s.fetchWord = .ok (.ldFromDT x) →
    ∃ t, step s = .next t ∧ t.reg x = (atFetch s).dt ∧ t.dt = (atFetch s).dt)

/-- R106, R107 (gates unchanged: D18): the counter is written, the tone follows ST. -/
def Obligations.TimersAreWritten : Prop :=
  ∀ (s : State) (x : RegNum),
    Completes (.ldDT x) s { delay := true } (fun t => t.dt = s.reg x ∧ t.pc = s.pc + 2#16) ∧
    Completes (.ldST x) s { sound := true }
      (fun t => t.st = s.reg x ∧ t.pc = s.pc + 2#16 ∧ (t.toneActive = true ↔ s.reg x ≠ 0))

/-! ## Draw -/

/-- R109, R110 (n = 0: D10; bounds: D11): the blitter equals the closed form: exactly the pixels that a set sprite bit
covers are inverted, and VF says whether one of them was set before. Premise: the framebuffer is at least 8 wide and n
high, as this hardware's 64 by 32 always is, so that no two bits hit one pixel (R110); `DrawTogglesOncePerLanding` has
no such premise. -/
def Obligations.DrawInvertsCoveredPixels : Prop :=
  ∀ (s : State) (x y : RegNum) (n : Nibble), (n = 0#4 ∨ s.i.toNat + n.toNat - 1 ≤ 0xFFF) →
    8 ≤ s.fb.width → n.toNat ≤ s.fb.height →
    Completes (.drw x y n) s { screen := true, regs := [vF] } (fun t => t.pc = s.pc + 2#16 ∧
      (∀ px py, px < s.fb.width → py < s.fb.height →
        (Covers s x y n px py → t.fb.pixel px py = !s.fb.pixel px py) ∧
        (¬ Covers s x y n px py → t.fb.pixel px py = s.fb.pixel px py)) ∧
      ((∃ px py, px < s.fb.width ∧ py < s.fb.height ∧ Covers s x y n px py ∧ s.fb.pixel px py = true) →
        t.reg vF = 1#8) ∧
      ((∀ px py, px < s.fb.width → py < s.fb.height → Covers s x y n px py → s.fb.pixel px py = false) →
        t.reg vF = 0#8))

/-- R109 (D11): a sprite that passes 0xFFF raises MemoryBoundsError and draws nothing. -/
def Obligations.DrawPastTheEndHalts : Prop :=
  ∀ (s : State) (x y : RegNum) (n : Nibble), n ≠ 0#4 → 0xFFF < s.i.toNat + n.toNat - 1 →
    exec (.drw x y n) s = .next (erred s (.memoryBounds (max s.i.toNat 0x1000)))

/-- Erase-by-redraw, derived from R109 and R110: drawing the same sprite at the same coordinates again restores the
whole framebuffer, of any size; where it is at least 8 wide and n high, the second draw reports a collision exactly if
some covered pixel was clear before the first. R111's `[derived]` remark that it does so whenever the sprite has a set
bit holds where the first draw set such a pixel (on a blank screen, say), and not where it cleared every covered pixel
(log entry 17). -/
def Obligations.DrawTwiceErases : Prop :=
  ∀ (s t u : State) (x y : RegNum) (n : Nibble), (n = 0#4 ∨ s.i.toNat + n.toNat - 1 ≤ 0xFFF) →
    exec (.drw x y n) s = .next t → u.fb = t.fb → u.mem = s.mem → u.i = s.i → u.reg x = s.reg x → u.reg y = s.reg y →
    ∃ w, exec (.drw x y n) u = .next w ∧ w.fb = s.fb ∧
      (8 ≤ s.fb.width → n.toNat ≤ s.fb.height →
        ((∃ px py, px < s.fb.width ∧ py < s.fb.height ∧ Covers s x y n px py ∧ s.fb.pixel px py = false) →
          w.reg vF = 1#8) ∧
        ((∀ px py, px < s.fb.width → py < s.fb.height → Covers s x y n px py → s.fb.pixel px py = true) →
          w.reg vF = 0#8))

/-- R109, R110 (n = 0: D10; bounds: D11) for every size of the framebuffer (parameters of R5): a pixel is inverted once
for every set bit that lands on it, and VF is 1 exactly if some landing found its pixel set: one that was set before,
or one hit a second time. -/
def Obligations.DrawTogglesOncePerLanding : Prop :=
  ∀ (s : State) (x y : RegNum) (n : Nibble), (n = 0#4 ∨ s.i.toNat + n.toNat - 1 ≤ 0xFFF) →
    ∃ t, exec (.drw x y n) s = .next t ∧ t.fb.width = s.fb.width ∧ t.fb.height = s.fb.height ∧
      (∀ px py, px < s.fb.width → py < s.fb.height →
        (t.fb.pixel px py ≠ s.fb.pixel px py ↔ (landings s x y n).count (px, py) % 2 = 1)) ∧
      (t.reg vF = 0#8 ∨ t.reg vF = 1#8) ∧
      (t.reg vF = 1#8 ↔ ∃ px py, px < s.fb.width ∧ py < s.fb.height ∧
        ((s.fb.pixel px py = true ∧ (px, py) ∈ landings s x y n) ∨ 2 ≤ (landings s x y n).count (px, py)))

/-! ## Rules over all instructions -/

/-- R113, R114, R117, R120 (precise errors: D5): where the one error condition of an instruction holds, it leaves the
state halted with that error and changes nothing else; where it does not, the instruction completes, halting only for
EXIT. Premise: SP <= 16 (R16), which the invariant gives. -/
def Obligations.InstructionCompletesOrErrsPrecisely : Prop :=
  ∀ (i : Instr) (s : State), s.sp.toNat ≤ 16 →
    (∀ e, errorOf i s = some e → exec i s = .next (erred s e)) ∧
    (errorOf i s = none →
      ∃ t, exec i s = .next t ∧ t.status = some (if i = .exit then .exited else .ok) ∧
        t.run = if i = .exit then .halted else s.run)

/-- R25 (derived from the instruction rules): no instruction changes anything outside the write columns of the access
matrix, in any state. -/
def Obligations.WritesStayInTheAccessMatrix : Prop :=
  ∀ (i : Instr) (s t : State), exec i s = .next t → FramedBy (footprint i s) s t

/-- R62 (the error row: D5): the PC after every instruction. -/
def Obligations.PcFollowsTheUpdateTable : Prop :=
  ∀ (i : Instr) (s t : State), exec i s = .next t →
    (errorOf i s = none → t.pc = nextPc i s) ∧ (errorOf i s ≠ none → t.pc = s.pc)

/-- R21, R112: no instruction but DRW reads the framebuffer: from two states that differ in it alone (in its size too),
every other instruction leads to two states that differ in it alone. -/
def Obligations.OnlyDrawReadsTheScreen : Prop :=
  ∀ (i : Instr) (s t s' : State), (∀ x y n, i ≠ .drw x y n) → SameButScreen s t → exec i s = .next s' →
    ∃ t', exec i t = .next t' ∧ SameButScreen s' t'

/-- R15, U18: no instruction reads a dead stack entry: from two states that differ in entries at or above SP alone,
every instruction leads to two such states. -/
def Obligations.DeadStackEntriesAreUnobservable : Prop :=
  ∀ (i : Instr) (s t s' : State), SameButDeadEntries s t → exec i s = .next s' →
    ∃ t', exec i t = .next t' ∧ SameButDeadEntries s' t'

/-! ## The invariant -/

/-- R28: the constructed machine meets the invariant. -/
def Obligations.ConstructedMachineMeetsInvariant : Prop := State.reset.Inv

/-- R28 (derived from R13, R14, R16, R21): every step from a state that meets the invariant leads to one that does:
I <= 0xFFF, SP <= 16, PC <= 0x10FE, stack entries <= 0x1000, memory canonical, periods >= 1, a framebuffer of at least one pixel. -/
def Obligations.StepKeepsInvariant : Prop :=
  ∀ s t : State, s.Inv → step s = .next t → t.Inv

/-- R114 "the core never panics": from a state that meets the invariant a step always leads to a next state; the
model's faults and refusals cannot occur. -/
def Obligations.StepNeverStops : Prop :=
  ∀ s : State, s.Inv → ∃ t, step s = .next t

/-- R28, R127: whatever the host constructs, commands and supplies, the machine meets the invariant. -/
def Obligations.ReachableStatesMeetInvariant : Prop :=
  ∀ s : State, Reachable s → s.Inv
end

