-- ==== Sys2Proof/Laws/Decode.lean ====
section
/-! SUPPORT. The fields of a word written out as a concatenation of nibbles and bytes (R46), and bytes back to words
(R33). -/

namespace Sys2Proof

/-- Concatenation on integers: the left part is shifted up by the width of the right. -/
theorem toNat_append_add {n m : Nat} (x : BitVec n) (y : BitVec m) : (x ++ y).toNat = x.toNat * 2 ^ m + y.toNat := by
  rw [BitVec.toNat_append, ← Nat.shiftLeft_add_eq_or_of_lt y.isLt, Nat.shiftLeft_eq]

/-! ## Four nibbles -/

theorem fieldO_nibbles (o x y n : BitVec 4) : fieldO (o ++ x ++ y ++ n) = o := by
  apply BitVec.eq_of_toNat_eq
  simp only [fieldO, BitVec.extractLsb'_toNat, toNat_append_add, Nat.shiftRight_eq_div_pow]
  omega

theorem fieldX_nibbles (o x y n : BitVec 4) : fieldX (o ++ x ++ y ++ n) = x := by
  apply BitVec.eq_of_toNat_eq
  simp only [fieldX, BitVec.extractLsb'_toNat, toNat_append_add, Nat.shiftRight_eq_div_pow]
  omega

theorem fieldY_nibbles (o x y n : BitVec 4) : fieldY (o ++ x ++ y ++ n) = y := by
  apply BitVec.eq_of_toNat_eq
  simp only [fieldY, BitVec.extractLsb'_toNat, toNat_append_add, Nat.shiftRight_eq_div_pow]
  omega

theorem fieldN_nibbles (o x y n : BitVec 4) : fieldN (o ++ x ++ y ++ n) = n := by
  apply BitVec.eq_of_toNat_eq
  simp only [fieldN, BitVec.extractLsb'_toNat, toNat_append_add, Nat.shiftRight_eq_div_pow]
  omega

/-! ## Two nibbles and a byte -/

theorem fieldO_byte (o x : BitVec 4) (kk : BitVec 8) : fieldO (o ++ x ++ kk) = o := by
  apply BitVec.eq_of_toNat_eq
  simp only [fieldO, BitVec.extractLsb'_toNat, toNat_append_add, Nat.shiftRight_eq_div_pow]
  omega

theorem fieldX_byte (o x : BitVec 4) (kk : BitVec 8) : fieldX (o ++ x ++ kk) = x := by
  apply BitVec.eq_of_toNat_eq
  simp only [fieldX, BitVec.extractLsb'_toNat, toNat_append_add, Nat.shiftRight_eq_div_pow]
  omega

theorem fieldKK_byte (o x : BitVec 4) (kk : BitVec 8) : fieldKK (o ++ x ++ kk) = kk := by
  apply BitVec.eq_of_toNat_eq
  simp only [fieldKK, BitVec.extractLsb'_toNat, toNat_append_add, Nat.shiftRight_zero]
  omega

/-! ## A nibble and an address -/

theorem fieldO_addr (o : BitVec 4) (nnn : BitVec 12) : fieldO (o ++ nnn) = o := by
  apply BitVec.eq_of_toNat_eq
  simp only [fieldO, BitVec.extractLsb'_toNat, toNat_append_add, Nat.shiftRight_eq_div_pow]
  omega

theorem fieldNNN_addr (o : BitVec 4) (nnn : BitVec 12) : fieldNNN (o ++ nnn) = nnn := by
  apply BitVec.eq_of_toNat_eq
  simp only [fieldNNN, BitVec.extractLsb'_toNat, toNat_append_add, Nat.shiftRight_zero]
  omega

/-! ## A word is the concatenation of its fields -/

theorem word_of_nibbles (w : Word) : fieldO w ++ fieldX w ++ fieldY w ++ fieldN w = w := by
  apply BitVec.eq_of_toNat_eq
  simp only [fieldO, fieldX, fieldY, fieldN, BitVec.extractLsb'_toNat, toNat_append_add, Nat.shiftRight_eq_div_pow]
  omega

theorem word_of_byte (w : Word) : fieldO w ++ fieldX w ++ fieldKK w = w := by
  apply BitVec.eq_of_toNat_eq
  simp only [fieldO, fieldX, fieldKK, BitVec.extractLsb'_toNat, toNat_append_add, Nat.shiftRight_eq_div_pow]
  omega

theorem word_of_addr (w : Word) : fieldO w ++ fieldNNN w = w := by
  apply BitVec.eq_of_toNat_eq
  simp only [fieldO, fieldNNN, BitVec.extractLsb'_toNat, toNat_append_add, Nat.shiftRight_eq_div_pow]
  omega

/-! ## Masks of the opcode table (R53) -/

theorem and_append {n m : Nat} (a c : BitVec n) (b d : BitVec m) :
    (a ++ b) &&& (c ++ d) = (a &&& c) ++ (b &&& d) := by
  ext i hi
  simp only [BitVec.getElem_and, BitVec.getElem_append]
  split <;> simp

theorem and_ones_nibble (n : BitVec 4) : n &&& 0xF#4 = n := by
  rw [show 0xF#4 = BitVec.allOnes 4 by decide, BitVec.and_allOnes]

theorem and_ones_byte (b : BitVec 8) : b &&& 0xFF#8 = b := by
  rw [show 0xFF#8 = BitVec.allOnes 8 by decide, BitVec.and_allOnes]

theorem maskF000_addr (o : BitVec 4) (nnn : BitVec 12) : (o ++ nnn) &&& 0xF000#16 = o ++ 0x000#12 := by
  rw [show 0xF000#16 = 0xF#4 ++ 0x000#12 by decide, and_append]
  simp [and_ones_nibble]

theorem maskF000_byte (o x : BitVec 4) (kk : BitVec 8) : (o ++ x ++ kk) &&& 0xF000#16 = o ++ 0x0#4 ++ 0x00#8 := by
  rw [show 0xF000#16 = 0xF#4 ++ 0x0#4 ++ 0x00#8 by decide, and_append, and_append]
  simp [and_ones_nibble]

theorem maskF0FF_byte (o x : BitVec 4) (kk : BitVec 8) : (o ++ x ++ kk) &&& 0xF0FF#16 = o ++ 0x0#4 ++ kk := by
  rw [show 0xF0FF#16 = 0xF#4 ++ 0x0#4 ++ 0xFF#8 by decide, and_append, and_append]
  simp [and_ones_nibble, and_ones_byte]

theorem maskF000_nibbles (o x y n : BitVec 4) :
    (o ++ x ++ y ++ n) &&& 0xF000#16 = o ++ 0x0#4 ++ 0x0#4 ++ 0x0#4 := by
  rw [show 0xF000#16 = 0xF#4 ++ 0x0#4 ++ 0x0#4 ++ 0x0#4 by decide, and_append, and_append, and_append]
  simp [and_ones_nibble]

theorem maskF00F_nibbles (o x y n : BitVec 4) :
    (o ++ x ++ y ++ n) &&& 0xF00F#16 = o ++ 0x0#4 ++ 0x0#4 ++ n := by
  rw [show 0xF00F#16 = 0xF#4 ++ 0x0#4 ++ 0x0#4 ++ 0xF#4 by decide, and_append, and_append, and_append]
  simp [and_ones_nibble]

/-! ## Bytes in memory order -/

theorem wordOfBytes_high_low (w : Word) : wordOfBytes (highByte w) (lowByte w) = w := by
  apply BitVec.eq_of_toNat_eq
  simp only [wordOfBytes, highByte, lowByte, BitVec.extractLsb'_toNat, toNat_append_add, Nat.shiftRight_eq_div_pow]
  omega

/-- Decoding the bytes of a word decodes the word, and leaves the rest of the list. -/
theorem decodeBytes_word (w : Word) (rest : List Byte) :
    decodeBytes (highByte w :: lowByte w :: rest) =
      match decode w with
      | .ok i => .ok (i, rest)
      | .error r => .error r := by
  cases h : decode w <;> simp [decodeBytes, wordOfBytes_high_low, h]

theorem decode_of_decodeTableWord {nbits w : Nat} {i : Instr} (h : decodeTableWord nbits w = some i) :
    decode (tableWord nbits w) = .ok i := by
  unfold decodeTableWord at h
  rw [decodeBytes_word] at h
  cases hd : decode (tableWord nbits w) with
  | ok j => simp [hd] at h; simp [h]
  | error r => simp [hd] at h

end Sys2Proof
end

