-- ==== Sys2Proof/Laws/Memory.lean ====
section
/-! SUPPORT. The laws of memory: a read after a write (R39), and that every operation keeps the canonical form. -/

namespace Sys2Proof.Machine

/-! ## Reading after writing -/

theorem read_erase (m : Mem) (a c : Nat) :
    Mem.read (Mem.erase m a) c = if c = a then Mem.resetByte a else Mem.read m c := by
  induction m with
  | nil => by_cases h : c = a <;> simp [Mem.erase, Mem.read, h]
  | cons cell m ih =>
    obtain ⟨k, b⟩ := cell
    unfold Mem.erase at ih ⊢
    by_cases hk : k = a
    · subst hk
      by_cases hc : c = k
      · subst hc
        simpa [Mem.read] using ih
      · simpa [Mem.read, hc] using ih
    · by_cases hc : c = k
      · subst hc
        simp [Mem.read, hk]
      · simp [Mem.read, hk, hc, ih]

theorem read_insert (m : Mem) (a c : Nat) (b : Byte) (h : ∀ d ∈ m, d.1 ≠ a) :
    Mem.read (Mem.insert a b m) c = if c = a then b else Mem.read m c := by
  induction m with
  | nil => by_cases hc : c = a <;> simp [Mem.insert, Mem.read, hc]
  | cons cell m ih =>
    obtain ⟨k, v⟩ := cell
    have hk : k ≠ a := h (k, v) (by simp)
    have hm := ih (fun d hd => h d (by simp [hd]))
    simp only [Mem.insert]
    split
    · by_cases hc : c = a <;> simp [Mem.read, hc]
    · by_cases hc : c = k
      · subst hc
        simp [Mem.read, hk]
      · simp [Mem.read, hc, hm]

theorem mem_erase_ne (m : Mem) (a : Nat) : ∀ d ∈ Mem.erase m a, d.1 ≠ a := by
  intro d hd
  simpa [Mem.erase] using (List.mem_filter.mp hd).2

/-- A byte read after a write is the one written, at the address written, and the old one elsewhere (R35, R39). -/
theorem read_write (m : Mem) (a c : Nat) (b : Byte) :
    Mem.read (Mem.write m a b) c = if c = a then b else Mem.read m c := by
  unfold Mem.write
  split
  · rw [read_erase]; simp_all
  · rw [read_insert _ _ _ _ (mem_erase_ne m a), read_erase]
    split <;> simp_all

/-- A block write changes no address outside the block. -/
theorem read_writeBlock_outside (m : Mem) (a c : Nat) (bs : List Byte) (h : c < a ∨ a + bs.length ≤ c) :
    Mem.read (Mem.writeBlock m a bs) c = Mem.read m c := by
  induction bs generalizing m a with
  | nil => rfl
  | cons b bs ih =>
    simp only [List.length_cons] at h
    rw [Mem.writeBlock, ih _ _ (by omega), read_write, if_neg (by omega)]

/-- A block write leaves its k-th byte at the k-th address. -/
theorem read_writeBlock_inside (m : Mem) (a k : Nat) (bs : List Byte) (h : k < bs.length) :
    Mem.read (Mem.writeBlock m a bs) (a + k) = bs[k] := by
  induction bs generalizing m a k with
  | nil => simp at h
  | cons b bs ih =>
    cases k with
    | zero => rw [Mem.writeBlock, read_writeBlock_outside _ _ _ _ (by omega), read_write]; simp
    | succ k =>
      have := ih (Mem.write m a b) (a + 1) k (by simpa using h)
      rw [Mem.writeBlock, show a + (k + 1) = a + 1 + k by omega, this]
      simp

theorem readBlock_length (m : Mem) (a len : Nat) : (Mem.readBlock m a len).length = len := by
  simp [Mem.readBlock]

theorem readBlock_getElem (m : Mem) (a len k : Nat) (h : k < (Mem.readBlock m a len).length) :
    (Mem.readBlock m a len)[k] = Mem.read m (a + k) := by
  simp [Mem.readBlock]

/-! ## The glyph table -/

theorem glyphs_length : glyphs.length = 80 := by decide

theorem resetByte_glyph (a : Nat) (h : a < 80) : Mem.resetByte a = glyphs[a]'(by rw [glyphs_length]; exact h) := by
  simp [Mem.resetByte, List.getD_eq_getElem?_getD, glyphs_length, h]

theorem resetByte_above (a : Nat) (h : 80 ≤ a) : Mem.resetByte a = 0 := by
  simp [Mem.resetByte, List.getD_eq_getElem?_getD, glyphs_length, h]

/-! ## The canonical form -/

theorem mem_insert (m : Mem) (a : Nat) (b : Byte) (c : Host.Cell) :
    c ∈ Mem.insert a b m ↔ c = (a, b) ∨ c ∈ m := by
  induction m with
  | nil => simp [Mem.insert]
  | cons d m ih =>
    simp only [Mem.insert]
    split
    · simp
    · simp [ih]
      tauto

theorem pairwise_insert (m : Mem) (a : Nat) (b : Byte) (h : ∀ d ∈ m, d.1 ≠ a)
    (hm : List.Pairwise (fun c d : Host.Cell => c.1 < d.1) m) :
    List.Pairwise (fun c d : Host.Cell => c.1 < d.1) (Mem.insert a b m) := by
  induction m with
  | nil => simp [Mem.insert]
  | cons d m ih =>
    rw [List.pairwise_cons] at hm
    have hd : d.1 ≠ a := h d (by simp)
    simp only [Mem.insert]
    split
    · rename_i hlt
      refine List.pairwise_cons.mpr ⟨?_, List.pairwise_cons.mpr hm⟩
      intro c hc
      rcases List.mem_cons.mp hc with rfl | hc
      · exact hlt
      · exact Nat.lt_trans hlt (hm.1 c hc)
    · refine List.pairwise_cons.mpr ⟨?_, ih (fun c hc => h c (by simp [hc])) hm.2⟩
      intro c hc
      rcases (mem_insert m a b c).mp hc with rfl | hc
      · simp only; omega
      · exact hm.1 c hc

theorem wf_nil : Mem.wf [] := by simp [Mem.wf]

theorem wf_erase {m : Mem} (h : Mem.wf m) (a : Nat) : Mem.wf (Mem.erase m a) :=
  ⟨h.1.filter _, fun c hc => h.2 c (List.mem_filter.mp hc).1⟩

/-- A write inside the address space keeps the canonical form. -/
theorem wf_write {m : Mem} (h : Mem.wf m) {a : Nat} (ha : a < Config.memSize) (b : Byte) :
    Mem.wf (Mem.write m a b) := by
  unfold Mem.write
  split
  · exact wf_erase h a
  · rename_i hb
    refine ⟨pairwise_insert _ _ _ (mem_erase_ne m a) (wf_erase h a).1, fun c hc => ?_⟩
    rcases (mem_insert _ _ _ _).mp hc with rfl | hc
    · exact ⟨ha, hb⟩
    · exact (wf_erase h a).2 c hc

/-- A block write inside the address space keeps the canonical form. -/
theorem wf_writeBlock {m : Mem} (h : Mem.wf m) (a : Nat) (bs : List Byte) (hb : a + bs.length ≤ Config.memSize) :
    Mem.wf (Mem.writeBlock m a bs) := by
  induction bs generalizing m a with
  | nil => exact h
  | cons b bs ih =>
    simp only [List.length_cons] at hb
    exact ih (wf_write h (by omega) b) (a + 1) (by omega)

end Sys2Proof.Machine
end

