-- ==== Sys2Proof/Laws/State.lean ====
section
/-! SUPPORT. One lemma per field per named update of the state, each true by unfolding, so that no later proof unfolds
a record update. -/

namespace Sys2Proof.Machine

variable (s : State)

/-! ## `State.setReg` -/

@[simp] theorem State.setReg_v (x : RegNum) (b : Byte) : (s.setReg x b).v = s.v.set x.toNat b x.isLt := rfl
@[simp] theorem State.setReg_i (x : RegNum) (b : Byte) : (s.setReg x b).i = s.i := rfl
@[simp] theorem State.setReg_pc (x : RegNum) (b : Byte) : (s.setReg x b).pc = s.pc := rfl
@[simp] theorem State.setReg_stack (x : RegNum) (b : Byte) : (s.setReg x b).stack = s.stack := rfl
@[simp] theorem State.setReg_sp (x : RegNum) (b : Byte) : (s.setReg x b).sp = s.sp := rfl
@[simp] theorem State.setReg_dt (x : RegNum) (b : Byte) : (s.setReg x b).dt = s.dt := rfl
@[simp] theorem State.setReg_st (x : RegNum) (b : Byte) : (s.setReg x b).st = s.st := rfl
@[simp] theorem State.setReg_gateD (x : RegNum) (b : Byte) : (s.setReg x b).gateD = s.gateD := rfl
@[simp] theorem State.setReg_gateS (x : RegNum) (b : Byte) : (s.setReg x b).gateS = s.gateS := rfl
@[simp] theorem State.setReg_run (x : RegNum) (b : Byte) : (s.setReg x b).run = s.run := rfl
@[simp] theorem State.setReg_fb (x : RegNum) (b : Byte) : (s.setReg x b).fb = s.fb := rfl
@[simp] theorem State.setReg_mem (x : RegNum) (b : Byte) : (s.setReg x b).mem = s.mem := rfl
@[simp] theorem State.setReg_delayPeriod (x : RegNum) (b : Byte) : (s.setReg x b).delayPeriod = s.delayPeriod := rfl
@[simp] theorem State.setReg_soundPeriod (x : RegNum) (b : Byte) : (s.setReg x b).soundPeriod = s.soundPeriod := rfl
@[simp] theorem State.setReg_keys (x : RegNum) (b : Byte) : (s.setReg x b).keys = s.keys := rfl
@[simp] theorem State.setReg_inputs (x : RegNum) (b : Byte) : (s.setReg x b).inputs = s.inputs := rfl
@[simp] theorem State.setReg_calls (x : RegNum) (b : Byte) : (s.setReg x b).calls = s.calls := rfl
@[simp] theorem State.setReg_randoms (x : RegNum) (b : Byte) : (s.setReg x b).randoms = s.randoms := rfl
@[simp] theorem State.setReg_drawn (x : RegNum) (b : Byte) : (s.setReg x b).drawn = s.drawn := rfl
@[simp] theorem State.setReg_status (x : RegNum) (b : Byte) : (s.setReg x b).status = s.status := rfl

/-! ## `State.setRegFlag` -/

@[simp] theorem State.setRegFlag_v (x : RegNum) (r f : Byte) : (s.setRegFlag x r f).v = ((s.v.set x.toNat r x.isLt).set vF.toNat f vF.isLt) := rfl
@[simp] theorem State.setRegFlag_i (x : RegNum) (r f : Byte) : (s.setRegFlag x r f).i = s.i := rfl
@[simp] theorem State.setRegFlag_pc (x : RegNum) (r f : Byte) : (s.setRegFlag x r f).pc = s.pc := rfl
@[simp] theorem State.setRegFlag_stack (x : RegNum) (r f : Byte) : (s.setRegFlag x r f).stack = s.stack := rfl
@[simp] theorem State.setRegFlag_sp (x : RegNum) (r f : Byte) : (s.setRegFlag x r f).sp = s.sp := rfl
@[simp] theorem State.setRegFlag_dt (x : RegNum) (r f : Byte) : (s.setRegFlag x r f).dt = s.dt := rfl
@[simp] theorem State.setRegFlag_st (x : RegNum) (r f : Byte) : (s.setRegFlag x r f).st = s.st := rfl
@[simp] theorem State.setRegFlag_gateD (x : RegNum) (r f : Byte) : (s.setRegFlag x r f).gateD = s.gateD := rfl
@[simp] theorem State.setRegFlag_gateS (x : RegNum) (r f : Byte) : (s.setRegFlag x r f).gateS = s.gateS := rfl
@[simp] theorem State.setRegFlag_run (x : RegNum) (r f : Byte) : (s.setRegFlag x r f).run = s.run := rfl
@[simp] theorem State.setRegFlag_fb (x : RegNum) (r f : Byte) : (s.setRegFlag x r f).fb = s.fb := rfl
@[simp] theorem State.setRegFlag_mem (x : RegNum) (r f : Byte) : (s.setRegFlag x r f).mem = s.mem := rfl
@[simp] theorem State.setRegFlag_delayPeriod (x : RegNum) (r f : Byte) : (s.setRegFlag x r f).delayPeriod = s.delayPeriod := rfl
@[simp] theorem State.setRegFlag_soundPeriod (x : RegNum) (r f : Byte) : (s.setRegFlag x r f).soundPeriod = s.soundPeriod := rfl
@[simp] theorem State.setRegFlag_keys (x : RegNum) (r f : Byte) : (s.setRegFlag x r f).keys = s.keys := rfl
@[simp] theorem State.setRegFlag_inputs (x : RegNum) (r f : Byte) : (s.setRegFlag x r f).inputs = s.inputs := rfl
@[simp] theorem State.setRegFlag_calls (x : RegNum) (r f : Byte) : (s.setRegFlag x r f).calls = s.calls := rfl
@[simp] theorem State.setRegFlag_randoms (x : RegNum) (r f : Byte) : (s.setRegFlag x r f).randoms = s.randoms := rfl
@[simp] theorem State.setRegFlag_drawn (x : RegNum) (r f : Byte) : (s.setRegFlag x r f).drawn = s.drawn := rfl
@[simp] theorem State.setRegFlag_status (x : RegNum) (r f : Byte) : (s.setRegFlag x r f).status = s.status := rfl

/-! ## `State.setI` -/

@[simp] theorem State.setI_v (w : Word) : (s.setI w).v = s.v := rfl
@[simp] theorem State.setI_i (w : Word) : (s.setI w).i = maskI w := rfl
@[simp] theorem State.setI_pc (w : Word) : (s.setI w).pc = s.pc := rfl
@[simp] theorem State.setI_stack (w : Word) : (s.setI w).stack = s.stack := rfl
@[simp] theorem State.setI_sp (w : Word) : (s.setI w).sp = s.sp := rfl
@[simp] theorem State.setI_dt (w : Word) : (s.setI w).dt = s.dt := rfl
@[simp] theorem State.setI_st (w : Word) : (s.setI w).st = s.st := rfl
@[simp] theorem State.setI_gateD (w : Word) : (s.setI w).gateD = s.gateD := rfl
@[simp] theorem State.setI_gateS (w : Word) : (s.setI w).gateS = s.gateS := rfl
@[simp] theorem State.setI_run (w : Word) : (s.setI w).run = s.run := rfl
@[simp] theorem State.setI_fb (w : Word) : (s.setI w).fb = s.fb := rfl
@[simp] theorem State.setI_mem (w : Word) : (s.setI w).mem = s.mem := rfl
@[simp] theorem State.setI_delayPeriod (w : Word) : (s.setI w).delayPeriod = s.delayPeriod := rfl
@[simp] theorem State.setI_soundPeriod (w : Word) : (s.setI w).soundPeriod = s.soundPeriod := rfl
@[simp] theorem State.setI_keys (w : Word) : (s.setI w).keys = s.keys := rfl
@[simp] theorem State.setI_inputs (w : Word) : (s.setI w).inputs = s.inputs := rfl
@[simp] theorem State.setI_calls (w : Word) : (s.setI w).calls = s.calls := rfl
@[simp] theorem State.setI_randoms (w : Word) : (s.setI w).randoms = s.randoms := rfl
@[simp] theorem State.setI_drawn (w : Word) : (s.setI w).drawn = s.drawn := rfl
@[simp] theorem State.setI_status (w : Word) : (s.setI w).status = s.status := rfl

/-! ## `State.setDT` -/

@[simp] theorem State.setDT_v (b : Byte) : (s.setDT b).v = s.v := rfl
@[simp] theorem State.setDT_i (b : Byte) : (s.setDT b).i = s.i := rfl
@[simp] theorem State.setDT_pc (b : Byte) : (s.setDT b).pc = s.pc := rfl
@[simp] theorem State.setDT_stack (b : Byte) : (s.setDT b).stack = s.stack := rfl
@[simp] theorem State.setDT_sp (b : Byte) : (s.setDT b).sp = s.sp := rfl
@[simp] theorem State.setDT_dt (b : Byte) : (s.setDT b).dt = b := rfl
@[simp] theorem State.setDT_st (b : Byte) : (s.setDT b).st = s.st := rfl
@[simp] theorem State.setDT_gateD (b : Byte) : (s.setDT b).gateD = s.gateD := rfl
@[simp] theorem State.setDT_gateS (b : Byte) : (s.setDT b).gateS = s.gateS := rfl
@[simp] theorem State.setDT_run (b : Byte) : (s.setDT b).run = s.run := rfl
@[simp] theorem State.setDT_fb (b : Byte) : (s.setDT b).fb = s.fb := rfl
@[simp] theorem State.setDT_mem (b : Byte) : (s.setDT b).mem = s.mem := rfl
@[simp] theorem State.setDT_delayPeriod (b : Byte) : (s.setDT b).delayPeriod = s.delayPeriod := rfl
@[simp] theorem State.setDT_soundPeriod (b : Byte) : (s.setDT b).soundPeriod = s.soundPeriod := rfl
@[simp] theorem State.setDT_keys (b : Byte) : (s.setDT b).keys = s.keys := rfl
@[simp] theorem State.setDT_inputs (b : Byte) : (s.setDT b).inputs = s.inputs := rfl
@[simp] theorem State.setDT_calls (b : Byte) : (s.setDT b).calls = s.calls := rfl
@[simp] theorem State.setDT_randoms (b : Byte) : (s.setDT b).randoms = s.randoms := rfl
@[simp] theorem State.setDT_drawn (b : Byte) : (s.setDT b).drawn = s.drawn := rfl
@[simp] theorem State.setDT_status (b : Byte) : (s.setDT b).status = s.status := rfl

/-! ## `State.setST` -/

@[simp] theorem State.setST_v (b : Byte) : (s.setST b).v = s.v := rfl
@[simp] theorem State.setST_i (b : Byte) : (s.setST b).i = s.i := rfl
@[simp] theorem State.setST_pc (b : Byte) : (s.setST b).pc = s.pc := rfl
@[simp] theorem State.setST_stack (b : Byte) : (s.setST b).stack = s.stack := rfl
@[simp] theorem State.setST_sp (b : Byte) : (s.setST b).sp = s.sp := rfl
@[simp] theorem State.setST_dt (b : Byte) : (s.setST b).dt = s.dt := rfl
@[simp] theorem State.setST_st (b : Byte) : (s.setST b).st = b := rfl
@[simp] theorem State.setST_gateD (b : Byte) : (s.setST b).gateD = s.gateD := rfl
@[simp] theorem State.setST_gateS (b : Byte) : (s.setST b).gateS = s.gateS := rfl
@[simp] theorem State.setST_run (b : Byte) : (s.setST b).run = s.run := rfl
@[simp] theorem State.setST_fb (b : Byte) : (s.setST b).fb = s.fb := rfl
@[simp] theorem State.setST_mem (b : Byte) : (s.setST b).mem = s.mem := rfl
@[simp] theorem State.setST_delayPeriod (b : Byte) : (s.setST b).delayPeriod = s.delayPeriod := rfl
@[simp] theorem State.setST_soundPeriod (b : Byte) : (s.setST b).soundPeriod = s.soundPeriod := rfl
@[simp] theorem State.setST_keys (b : Byte) : (s.setST b).keys = s.keys := rfl
@[simp] theorem State.setST_inputs (b : Byte) : (s.setST b).inputs = s.inputs := rfl
@[simp] theorem State.setST_calls (b : Byte) : (s.setST b).calls = s.calls := rfl
@[simp] theorem State.setST_randoms (b : Byte) : (s.setST b).randoms = s.randoms := rfl
@[simp] theorem State.setST_drawn (b : Byte) : (s.setST b).drawn = s.drawn := rfl
@[simp] theorem State.setST_status (b : Byte) : (s.setST b).status = s.status := rfl

/-! ## `State.loadLowRegs` -/

@[simp] theorem State.loadLowRegs_i (x : RegNum) (base : Nat) : (s.loadLowRegs x base).i = s.i := rfl
@[simp] theorem State.loadLowRegs_pc (x : RegNum) (base : Nat) : (s.loadLowRegs x base).pc = s.pc := rfl
@[simp] theorem State.loadLowRegs_stack (x : RegNum) (base : Nat) : (s.loadLowRegs x base).stack = s.stack := rfl
@[simp] theorem State.loadLowRegs_sp (x : RegNum) (base : Nat) : (s.loadLowRegs x base).sp = s.sp := rfl
@[simp] theorem State.loadLowRegs_dt (x : RegNum) (base : Nat) : (s.loadLowRegs x base).dt = s.dt := rfl
@[simp] theorem State.loadLowRegs_st (x : RegNum) (base : Nat) : (s.loadLowRegs x base).st = s.st := rfl
@[simp] theorem State.loadLowRegs_gateD (x : RegNum) (base : Nat) : (s.loadLowRegs x base).gateD = s.gateD := rfl
@[simp] theorem State.loadLowRegs_gateS (x : RegNum) (base : Nat) : (s.loadLowRegs x base).gateS = s.gateS := rfl
@[simp] theorem State.loadLowRegs_run (x : RegNum) (base : Nat) : (s.loadLowRegs x base).run = s.run := rfl
@[simp] theorem State.loadLowRegs_fb (x : RegNum) (base : Nat) : (s.loadLowRegs x base).fb = s.fb := rfl
@[simp] theorem State.loadLowRegs_mem (x : RegNum) (base : Nat) : (s.loadLowRegs x base).mem = s.mem := rfl
@[simp] theorem State.loadLowRegs_delayPeriod (x : RegNum) (base : Nat) : (s.loadLowRegs x base).delayPeriod = s.delayPeriod := rfl
@[simp] theorem State.loadLowRegs_soundPeriod (x : RegNum) (base : Nat) : (s.loadLowRegs x base).soundPeriod = s.soundPeriod := rfl
@[simp] theorem State.loadLowRegs_keys (x : RegNum) (base : Nat) : (s.loadLowRegs x base).keys = s.keys := rfl
@[simp] theorem State.loadLowRegs_inputs (x : RegNum) (base : Nat) : (s.loadLowRegs x base).inputs = s.inputs := rfl
@[simp] theorem State.loadLowRegs_calls (x : RegNum) (base : Nat) : (s.loadLowRegs x base).calls = s.calls := rfl
@[simp] theorem State.loadLowRegs_randoms (x : RegNum) (base : Nat) : (s.loadLowRegs x base).randoms = s.randoms := rfl
@[simp] theorem State.loadLowRegs_drawn (x : RegNum) (base : Nat) : (s.loadLowRegs x base).drawn = s.drawn := rfl
@[simp] theorem State.loadLowRegs_status (x : RegNum) (base : Nat) : (s.loadLowRegs x base).status = s.status := rfl

/-! ## `State.store` -/

@[simp] theorem State.store_v (a : Nat) (bs : List Byte) : (s.store a bs).v = s.v := rfl
@[simp] theorem State.store_i (a : Nat) (bs : List Byte) : (s.store a bs).i = s.i := rfl
@[simp] theorem State.store_pc (a : Nat) (bs : List Byte) : (s.store a bs).pc = s.pc := rfl
@[simp] theorem State.store_stack (a : Nat) (bs : List Byte) : (s.store a bs).stack = s.stack := rfl
@[simp] theorem State.store_sp (a : Nat) (bs : List Byte) : (s.store a bs).sp = s.sp := rfl
@[simp] theorem State.store_dt (a : Nat) (bs : List Byte) : (s.store a bs).dt = s.dt := rfl
@[simp] theorem State.store_st (a : Nat) (bs : List Byte) : (s.store a bs).st = s.st := rfl
@[simp] theorem State.store_gateD (a : Nat) (bs : List Byte) : (s.store a bs).gateD = s.gateD := rfl
@[simp] theorem State.store_gateS (a : Nat) (bs : List Byte) : (s.store a bs).gateS = s.gateS := rfl
@[simp] theorem State.store_run (a : Nat) (bs : List Byte) : (s.store a bs).run = s.run := rfl
@[simp] theorem State.store_fb (a : Nat) (bs : List Byte) : (s.store a bs).fb = s.fb := rfl
@[simp] theorem State.store_mem (a : Nat) (bs : List Byte) : (s.store a bs).mem = Mem.writeBlock s.mem a bs := rfl
@[simp] theorem State.store_delayPeriod (a : Nat) (bs : List Byte) : (s.store a bs).delayPeriod = s.delayPeriod := rfl
@[simp] theorem State.store_soundPeriod (a : Nat) (bs : List Byte) : (s.store a bs).soundPeriod = s.soundPeriod := rfl
@[simp] theorem State.store_keys (a : Nat) (bs : List Byte) : (s.store a bs).keys = s.keys := rfl
@[simp] theorem State.store_inputs (a : Nat) (bs : List Byte) : (s.store a bs).inputs = s.inputs := rfl
@[simp] theorem State.store_calls (a : Nat) (bs : List Byte) : (s.store a bs).calls = s.calls := rfl
@[simp] theorem State.store_randoms (a : Nat) (bs : List Byte) : (s.store a bs).randoms = s.randoms := rfl
@[simp] theorem State.store_drawn (a : Nat) (bs : List Byte) : (s.store a bs).drawn = s.drawn := rfl
@[simp] theorem State.store_status (a : Nat) (bs : List Byte) : (s.store a bs).status = s.status := rfl

/-! ## `State.setScreen` -/

@[simp] theorem State.setScreen_v (f : Screen) : (s.setScreen f).v = s.v := rfl
@[simp] theorem State.setScreen_i (f : Screen) : (s.setScreen f).i = s.i := rfl
@[simp] theorem State.setScreen_pc (f : Screen) : (s.setScreen f).pc = s.pc := rfl
@[simp] theorem State.setScreen_stack (f : Screen) : (s.setScreen f).stack = s.stack := rfl
@[simp] theorem State.setScreen_sp (f : Screen) : (s.setScreen f).sp = s.sp := rfl
@[simp] theorem State.setScreen_dt (f : Screen) : (s.setScreen f).dt = s.dt := rfl
@[simp] theorem State.setScreen_st (f : Screen) : (s.setScreen f).st = s.st := rfl
@[simp] theorem State.setScreen_gateD (f : Screen) : (s.setScreen f).gateD = s.gateD := rfl
@[simp] theorem State.setScreen_gateS (f : Screen) : (s.setScreen f).gateS = s.gateS := rfl
@[simp] theorem State.setScreen_run (f : Screen) : (s.setScreen f).run = s.run := rfl
@[simp] theorem State.setScreen_fb (f : Screen) : (s.setScreen f).fb = f := rfl
@[simp] theorem State.setScreen_mem (f : Screen) : (s.setScreen f).mem = s.mem := rfl
@[simp] theorem State.setScreen_delayPeriod (f : Screen) : (s.setScreen f).delayPeriod = s.delayPeriod := rfl
@[simp] theorem State.setScreen_soundPeriod (f : Screen) : (s.setScreen f).soundPeriod = s.soundPeriod := rfl
@[simp] theorem State.setScreen_keys (f : Screen) : (s.setScreen f).keys = s.keys := rfl
@[simp] theorem State.setScreen_inputs (f : Screen) : (s.setScreen f).inputs = s.inputs := rfl
@[simp] theorem State.setScreen_calls (f : Screen) : (s.setScreen f).calls = s.calls := rfl
@[simp] theorem State.setScreen_randoms (f : Screen) : (s.setScreen f).randoms = s.randoms := rfl
@[simp] theorem State.setScreen_drawn (f : Screen) : (s.setScreen f).drawn = s.drawn := rfl
@[simp] theorem State.setScreen_status (f : Screen) : (s.setScreen f).status = s.status := rfl

/-! ## `State.takeRandom` -/

@[simp] theorem State.takeRandom_v : (s.takeRandom).v = s.v := rfl
@[simp] theorem State.takeRandom_i : (s.takeRandom).i = s.i := rfl
@[simp] theorem State.takeRandom_pc : (s.takeRandom).pc = s.pc := rfl
@[simp] theorem State.takeRandom_stack : (s.takeRandom).stack = s.stack := rfl
@[simp] theorem State.takeRandom_sp : (s.takeRandom).sp = s.sp := rfl
@[simp] theorem State.takeRandom_dt : (s.takeRandom).dt = s.dt := rfl
@[simp] theorem State.takeRandom_st : (s.takeRandom).st = s.st := rfl
@[simp] theorem State.takeRandom_gateD : (s.takeRandom).gateD = s.gateD := rfl
@[simp] theorem State.takeRandom_gateS : (s.takeRandom).gateS = s.gateS := rfl
@[simp] theorem State.takeRandom_run : (s.takeRandom).run = s.run := rfl
@[simp] theorem State.takeRandom_fb : (s.takeRandom).fb = s.fb := rfl
@[simp] theorem State.takeRandom_mem : (s.takeRandom).mem = s.mem := rfl
@[simp] theorem State.takeRandom_delayPeriod : (s.takeRandom).delayPeriod = s.delayPeriod := rfl
@[simp] theorem State.takeRandom_soundPeriod : (s.takeRandom).soundPeriod = s.soundPeriod := rfl
@[simp] theorem State.takeRandom_keys : (s.takeRandom).keys = s.keys := rfl
@[simp] theorem State.takeRandom_inputs : (s.takeRandom).inputs = s.inputs := rfl
@[simp] theorem State.takeRandom_calls : (s.takeRandom).calls = s.calls := rfl
@[simp] theorem State.takeRandom_randoms : (s.takeRandom).randoms = s.randoms.tail := rfl
@[simp] theorem State.takeRandom_drawn : (s.takeRandom).drawn = s.drawn + 1 := rfl
@[simp] theorem State.takeRandom_status : (s.takeRandom).status = s.status := rfl

/-! ## `State.raise` -/

@[simp] theorem State.raise_v (e : CoreError) : (s.raise e).v = s.v := rfl
@[simp] theorem State.raise_i (e : CoreError) : (s.raise e).i = s.i := rfl
@[simp] theorem State.raise_pc (e : CoreError) : (s.raise e).pc = s.pc := rfl
@[simp] theorem State.raise_stack (e : CoreError) : (s.raise e).stack = s.stack := rfl
@[simp] theorem State.raise_sp (e : CoreError) : (s.raise e).sp = s.sp := rfl
@[simp] theorem State.raise_dt (e : CoreError) : (s.raise e).dt = s.dt := rfl
@[simp] theorem State.raise_st (e : CoreError) : (s.raise e).st = s.st := rfl
@[simp] theorem State.raise_gateD (e : CoreError) : (s.raise e).gateD = s.gateD := rfl
@[simp] theorem State.raise_gateS (e : CoreError) : (s.raise e).gateS = s.gateS := rfl
@[simp] theorem State.raise_run (e : CoreError) : (s.raise e).run = .halted := rfl
@[simp] theorem State.raise_fb (e : CoreError) : (s.raise e).fb = s.fb := rfl
@[simp] theorem State.raise_mem (e : CoreError) : (s.raise e).mem = s.mem := rfl
@[simp] theorem State.raise_delayPeriod (e : CoreError) : (s.raise e).delayPeriod = s.delayPeriod := rfl
@[simp] theorem State.raise_soundPeriod (e : CoreError) : (s.raise e).soundPeriod = s.soundPeriod := rfl
@[simp] theorem State.raise_keys (e : CoreError) : (s.raise e).keys = s.keys := rfl
@[simp] theorem State.raise_inputs (e : CoreError) : (s.raise e).inputs = s.inputs := rfl
@[simp] theorem State.raise_calls (e : CoreError) : (s.raise e).calls = s.calls := rfl
@[simp] theorem State.raise_randoms (e : CoreError) : (s.raise e).randoms = s.randoms := rfl
@[simp] theorem State.raise_drawn (e : CoreError) : (s.raise e).drawn = s.drawn := rfl
@[simp] theorem State.raise_status (e : CoreError) : (s.raise e).status = some (.error e) := rfl

/-! ## `State.haltExit` -/

@[simp] theorem State.haltExit_v : (s.haltExit).v = s.v := rfl
@[simp] theorem State.haltExit_i : (s.haltExit).i = s.i := rfl
@[simp] theorem State.haltExit_pc : (s.haltExit).pc = s.pc := rfl
@[simp] theorem State.haltExit_stack : (s.haltExit).stack = s.stack := rfl
@[simp] theorem State.haltExit_sp : (s.haltExit).sp = s.sp := rfl
@[simp] theorem State.haltExit_dt : (s.haltExit).dt = s.dt := rfl
@[simp] theorem State.haltExit_st : (s.haltExit).st = s.st := rfl
@[simp] theorem State.haltExit_gateD : (s.haltExit).gateD = s.gateD := rfl
@[simp] theorem State.haltExit_gateS : (s.haltExit).gateS = s.gateS := rfl
@[simp] theorem State.haltExit_run : (s.haltExit).run = .halted := rfl
@[simp] theorem State.haltExit_fb : (s.haltExit).fb = s.fb := rfl
@[simp] theorem State.haltExit_mem : (s.haltExit).mem = s.mem := rfl
@[simp] theorem State.haltExit_delayPeriod : (s.haltExit).delayPeriod = s.delayPeriod := rfl
@[simp] theorem State.haltExit_soundPeriod : (s.haltExit).soundPeriod = s.soundPeriod := rfl
@[simp] theorem State.haltExit_keys : (s.haltExit).keys = s.keys := rfl
@[simp] theorem State.haltExit_inputs : (s.haltExit).inputs = s.inputs := rfl
@[simp] theorem State.haltExit_calls : (s.haltExit).calls = s.calls := rfl
@[simp] theorem State.haltExit_randoms : (s.haltExit).randoms = s.randoms := rfl
@[simp] theorem State.haltExit_drawn : (s.haltExit).drawn = s.drawn := rfl
@[simp] theorem State.haltExit_status : (s.haltExit).status = some .exited := rfl

/-! ## `State.stepHalted` -/

@[simp] theorem State.stepHalted_v : (s.stepHalted).v = s.v := rfl
@[simp] theorem State.stepHalted_i : (s.stepHalted).i = s.i := rfl
@[simp] theorem State.stepHalted_pc : (s.stepHalted).pc = s.pc := rfl
@[simp] theorem State.stepHalted_stack : (s.stepHalted).stack = s.stack := rfl
@[simp] theorem State.stepHalted_sp : (s.stepHalted).sp = s.sp := rfl
@[simp] theorem State.stepHalted_dt : (s.stepHalted).dt = s.dt := rfl
@[simp] theorem State.stepHalted_st : (s.stepHalted).st = s.st := rfl
@[simp] theorem State.stepHalted_gateD : (s.stepHalted).gateD = s.gateD := rfl
@[simp] theorem State.stepHalted_gateS : (s.stepHalted).gateS = s.gateS := rfl
@[simp] theorem State.stepHalted_run : (s.stepHalted).run = s.run := rfl
@[simp] theorem State.stepHalted_fb : (s.stepHalted).fb = s.fb := rfl
@[simp] theorem State.stepHalted_mem : (s.stepHalted).mem = s.mem := rfl
@[simp] theorem State.stepHalted_delayPeriod : (s.stepHalted).delayPeriod = s.delayPeriod := rfl
@[simp] theorem State.stepHalted_soundPeriod : (s.stepHalted).soundPeriod = s.soundPeriod := rfl
@[simp] theorem State.stepHalted_keys : (s.stepHalted).keys = s.keys := rfl
@[simp] theorem State.stepHalted_inputs : (s.stepHalted).inputs = s.inputs := rfl
@[simp] theorem State.stepHalted_calls : (s.stepHalted).calls = s.calls := rfl
@[simp] theorem State.stepHalted_randoms : (s.stepHalted).randoms = s.randoms := rfl
@[simp] theorem State.stepHalted_drawn : (s.stepHalted).drawn = s.drawn := rfl
@[simp] theorem State.stepHalted_status : (s.stepHalted).status = some .halted := rfl

/-! ## `State.timerPhase` -/

@[simp] theorem State.timerPhase_v (now : Nat) : (s.timerPhase now).v = s.v := rfl
@[simp] theorem State.timerPhase_i (now : Nat) : (s.timerPhase now).i = s.i := rfl
@[simp] theorem State.timerPhase_pc (now : Nat) : (s.timerPhase now).pc = s.pc := rfl
@[simp] theorem State.timerPhase_stack (now : Nat) : (s.timerPhase now).stack = s.stack := rfl
@[simp] theorem State.timerPhase_sp (now : Nat) : (s.timerPhase now).sp = s.sp := rfl
@[simp] theorem State.timerPhase_dt (now : Nat) : (s.timerPhase now).dt = tickCounter s.delayPeriod now s.gateD s.dt := rfl
@[simp] theorem State.timerPhase_st (now : Nat) : (s.timerPhase now).st = tickCounter s.soundPeriod now s.gateS s.st := rfl
@[simp] theorem State.timerPhase_gateD (now : Nat) : (s.timerPhase now).gateD = tickGate s.delayPeriod now s.gateD := rfl
@[simp] theorem State.timerPhase_gateS (now : Nat) : (s.timerPhase now).gateS = tickGate s.soundPeriod now s.gateS := rfl
@[simp] theorem State.timerPhase_run (now : Nat) : (s.timerPhase now).run = s.run := rfl
@[simp] theorem State.timerPhase_fb (now : Nat) : (s.timerPhase now).fb = s.fb := rfl
@[simp] theorem State.timerPhase_mem (now : Nat) : (s.timerPhase now).mem = s.mem := rfl
@[simp] theorem State.timerPhase_delayPeriod (now : Nat) : (s.timerPhase now).delayPeriod = s.delayPeriod := rfl
@[simp] theorem State.timerPhase_soundPeriod (now : Nat) : (s.timerPhase now).soundPeriod = s.soundPeriod := rfl
@[simp] theorem State.timerPhase_keys (now : Nat) : (s.timerPhase now).keys = s.keys := rfl
@[simp] theorem State.timerPhase_inputs (now : Nat) : (s.timerPhase now).inputs = s.inputs := rfl
@[simp] theorem State.timerPhase_calls (now : Nat) : (s.timerPhase now).calls = s.calls := rfl
@[simp] theorem State.timerPhase_randoms (now : Nat) : (s.timerPhase now).randoms = s.randoms := rfl
@[simp] theorem State.timerPhase_drawn (now : Nat) : (s.timerPhase now).drawn = s.drawn := rfl
@[simp] theorem State.timerPhase_status (now : Nat) : (s.timerPhase now).status = s.status := rfl

/-! ## `State.takeInput` -/

@[simp] theorem State.takeInput_v : (s.takeInput).v = s.v := rfl
@[simp] theorem State.takeInput_i : (s.takeInput).i = s.i := rfl
@[simp] theorem State.takeInput_pc : (s.takeInput).pc = s.pc := rfl
@[simp] theorem State.takeInput_stack : (s.takeInput).stack = s.stack := rfl
@[simp] theorem State.takeInput_sp : (s.takeInput).sp = s.sp := rfl
@[simp] theorem State.takeInput_dt : (s.takeInput).dt = s.dt := rfl
@[simp] theorem State.takeInput_st : (s.takeInput).st = s.st := rfl
@[simp] theorem State.takeInput_gateD : (s.takeInput).gateD = s.gateD := rfl
@[simp] theorem State.takeInput_gateS : (s.takeInput).gateS = s.gateS := rfl
@[simp] theorem State.takeInput_run : (s.takeInput).run = s.run := rfl
@[simp] theorem State.takeInput_fb : (s.takeInput).fb = s.fb := rfl
@[simp] theorem State.takeInput_mem : (s.takeInput).mem = s.mem := rfl
@[simp] theorem State.takeInput_delayPeriod : (s.takeInput).delayPeriod = s.delayPeriod := rfl
@[simp] theorem State.takeInput_soundPeriod : (s.takeInput).soundPeriod = s.soundPeriod := rfl
@[simp] theorem State.takeInput_keys : (s.takeInput).keys = s.input.keys := rfl
@[simp] theorem State.takeInput_inputs : (s.takeInput).inputs = s.inputs.tail := rfl
@[simp] theorem State.takeInput_calls : (s.takeInput).calls = s.calls + 1 := rfl
@[simp] theorem State.takeInput_randoms : (s.takeInput).randoms = s.randoms := rfl
@[simp] theorem State.takeInput_drawn : (s.takeInput).drawn = s.drawn := rfl
@[simp] theorem State.takeInput_status : (s.takeInput).status = s.status := rfl

/-! ## `State.hostReset` -/

@[simp] theorem State.hostReset_v (now : Nat) : (s.hostReset now).v = Vector.replicate 16 0 := rfl
@[simp] theorem State.hostReset_i (now : Nat) : (s.hostReset now).i = 0 := rfl
@[simp] theorem State.hostReset_pc (now : Nat) : (s.hostReset now).pc = 0x200 := rfl
@[simp] theorem State.hostReset_stack (now : Nat) : (s.hostReset now).stack = Vector.replicate 16 0 := rfl
@[simp] theorem State.hostReset_sp (now : Nat) : (s.hostReset now).sp = 0 := rfl
@[simp] theorem State.hostReset_dt (now : Nat) : (s.hostReset now).dt = 0 := rfl
@[simp] theorem State.hostReset_st (now : Nat) : (s.hostReset now).st = 0 := rfl
@[simp] theorem State.hostReset_gateD (now : Nat) : (s.hostReset now).gateD = now := rfl
@[simp] theorem State.hostReset_gateS (now : Nat) : (s.hostReset now).gateS = now := rfl
@[simp] theorem State.hostReset_run (now : Nat) : (s.hostReset now).run = .running := rfl
@[simp] theorem State.hostReset_fb (now : Nat) : (s.hostReset now).fb = Screen.clear s.fb.width s.fb.height := rfl
@[simp] theorem State.hostReset_mem (now : Nat) : (s.hostReset now).mem = Mem.writeBlock s.mem Config.fontBase glyphs := by
  simp only [State.hostReset]
@[simp] theorem State.hostReset_delayPeriod (now : Nat) : (s.hostReset now).delayPeriod = s.delayPeriod := rfl
@[simp] theorem State.hostReset_soundPeriod (now : Nat) : (s.hostReset now).soundPeriod = s.soundPeriod := rfl
@[simp] theorem State.hostReset_keys (now : Nat) : (s.hostReset now).keys = s.keys := rfl
@[simp] theorem State.hostReset_inputs (now : Nat) : (s.hostReset now).inputs = s.inputs := rfl
@[simp] theorem State.hostReset_calls (now : Nat) : (s.hostReset now).calls = s.calls := rfl
@[simp] theorem State.hostReset_randoms (now : Nat) : (s.hostReset now).randoms = s.randoms := rfl
@[simp] theorem State.hostReset_drawn (now : Nat) : (s.hostReset now).drawn = s.drawn := rfl
@[simp] theorem State.hostReset_status (now : Nat) : (s.hostReset now).status = none := rfl

/-! ## `State.hostHalt` -/

@[simp] theorem State.hostHalt_v : (s.hostHalt).v = s.v := rfl
@[simp] theorem State.hostHalt_i : (s.hostHalt).i = s.i := rfl
@[simp] theorem State.hostHalt_pc : (s.hostHalt).pc = s.pc := rfl
@[simp] theorem State.hostHalt_stack : (s.hostHalt).stack = s.stack := rfl
@[simp] theorem State.hostHalt_sp : (s.hostHalt).sp = s.sp := rfl
@[simp] theorem State.hostHalt_dt : (s.hostHalt).dt = s.dt := rfl
@[simp] theorem State.hostHalt_st : (s.hostHalt).st = s.st := rfl
@[simp] theorem State.hostHalt_gateD : (s.hostHalt).gateD = s.gateD := rfl
@[simp] theorem State.hostHalt_gateS : (s.hostHalt).gateS = s.gateS := rfl
@[simp] theorem State.hostHalt_run : (s.hostHalt).run = .halted := rfl
@[simp] theorem State.hostHalt_fb : (s.hostHalt).fb = s.fb := rfl
@[simp] theorem State.hostHalt_mem : (s.hostHalt).mem = s.mem := rfl
@[simp] theorem State.hostHalt_delayPeriod : (s.hostHalt).delayPeriod = s.delayPeriod := rfl
@[simp] theorem State.hostHalt_soundPeriod : (s.hostHalt).soundPeriod = s.soundPeriod := rfl
@[simp] theorem State.hostHalt_keys : (s.hostHalt).keys = s.keys := rfl
@[simp] theorem State.hostHalt_inputs : (s.hostHalt).inputs = s.inputs := rfl
@[simp] theorem State.hostHalt_calls : (s.hostHalt).calls = s.calls := rfl
@[simp] theorem State.hostHalt_randoms : (s.hostHalt).randoms = s.randoms := rfl
@[simp] theorem State.hostHalt_drawn : (s.hostHalt).drawn = s.drawn := rfl
@[simp] theorem State.hostHalt_status : (s.hostHalt).status = s.status := rfl

/-! ## `State.finish` -/

@[simp] theorem State.finish_v (w : Word) : (s.finish w).v = s.v := rfl
@[simp] theorem State.finish_i (w : Word) : (s.finish w).i = s.i := rfl
@[simp] theorem State.finish_pc (w : Word) : (s.finish w).pc = w := rfl
@[simp] theorem State.finish_stack (w : Word) : (s.finish w).stack = s.stack := rfl
@[simp] theorem State.finish_sp (w : Word) : (s.finish w).sp = s.sp := rfl
@[simp] theorem State.finish_dt (w : Word) : (s.finish w).dt = s.dt := rfl
@[simp] theorem State.finish_st (w : Word) : (s.finish w).st = s.st := rfl
@[simp] theorem State.finish_gateD (w : Word) : (s.finish w).gateD = s.gateD := rfl
@[simp] theorem State.finish_gateS (w : Word) : (s.finish w).gateS = s.gateS := rfl
@[simp] theorem State.finish_run (w : Word) : (s.finish w).run = s.run := rfl
@[simp] theorem State.finish_fb (w : Word) : (s.finish w).fb = s.fb := rfl
@[simp] theorem State.finish_mem (w : Word) : (s.finish w).mem = s.mem := rfl
@[simp] theorem State.finish_delayPeriod (w : Word) : (s.finish w).delayPeriod = s.delayPeriod := rfl
@[simp] theorem State.finish_soundPeriod (w : Word) : (s.finish w).soundPeriod = s.soundPeriod := rfl
@[simp] theorem State.finish_keys (w : Word) : (s.finish w).keys = s.keys := rfl
@[simp] theorem State.finish_inputs (w : Word) : (s.finish w).inputs = s.inputs := rfl
@[simp] theorem State.finish_calls (w : Word) : (s.finish w).calls = s.calls := rfl
@[simp] theorem State.finish_randoms (w : Word) : (s.finish w).randoms = s.randoms := rfl
@[simp] theorem State.finish_drawn (w : Word) : (s.finish w).drawn = s.drawn := rfl
@[simp] theorem State.finish_status (w : Word) : (s.finish w).status = some .ok := rfl

/-! ## `State.push` -/

@[simp] theorem State.push_v (w : Word) (h : s.sp.toNat < 16) : (s.push w h).v = s.v := rfl
@[simp] theorem State.push_i (w : Word) (h : s.sp.toNat < 16) : (s.push w h).i = s.i := rfl
@[simp] theorem State.push_pc (w : Word) (h : s.sp.toNat < 16) : (s.push w h).pc = s.pc := rfl
@[simp] theorem State.push_stack (w : Word) (h : s.sp.toNat < 16) : (s.push w h).stack = s.stack.set s.sp.toNat w h := rfl
@[simp] theorem State.push_sp (w : Word) (h : s.sp.toNat < 16) : (s.push w h).sp = s.sp + 1#8 := rfl
@[simp] theorem State.push_dt (w : Word) (h : s.sp.toNat < 16) : (s.push w h).dt = s.dt := rfl
@[simp] theorem State.push_st (w : Word) (h : s.sp.toNat < 16) : (s.push w h).st = s.st := rfl
@[simp] theorem State.push_gateD (w : Word) (h : s.sp.toNat < 16) : (s.push w h).gateD = s.gateD := rfl
@[simp] theorem State.push_gateS (w : Word) (h : s.sp.toNat < 16) : (s.push w h).gateS = s.gateS := rfl
@[simp] theorem State.push_run (w : Word) (h : s.sp.toNat < 16) : (s.push w h).run = s.run := rfl
@[simp] theorem State.push_fb (w : Word) (h : s.sp.toNat < 16) : (s.push w h).fb = s.fb := rfl
@[simp] theorem State.push_mem (w : Word) (h : s.sp.toNat < 16) : (s.push w h).mem = s.mem := rfl
@[simp] theorem State.push_delayPeriod (w : Word) (h : s.sp.toNat < 16) : (s.push w h).delayPeriod = s.delayPeriod := rfl
@[simp] theorem State.push_soundPeriod (w : Word) (h : s.sp.toNat < 16) : (s.push w h).soundPeriod = s.soundPeriod := rfl
@[simp] theorem State.push_keys (w : Word) (h : s.sp.toNat < 16) : (s.push w h).keys = s.keys := rfl
@[simp] theorem State.push_inputs (w : Word) (h : s.sp.toNat < 16) : (s.push w h).inputs = s.inputs := rfl
@[simp] theorem State.push_calls (w : Word) (h : s.sp.toNat < 16) : (s.push w h).calls = s.calls := rfl
@[simp] theorem State.push_randoms (w : Word) (h : s.sp.toNat < 16) : (s.push w h).randoms = s.randoms := rfl
@[simp] theorem State.push_drawn (w : Word) (h : s.sp.toNat < 16) : (s.push w h).drawn = s.drawn := rfl
@[simp] theorem State.push_status (w : Word) (h : s.sp.toNat < 16) : (s.push w h).status = s.status := rfl

/-! ## `State.pop` -/

@[simp] theorem State.pop_v : (s.pop).v = s.v := rfl
@[simp] theorem State.pop_i : (s.pop).i = s.i := rfl
@[simp] theorem State.pop_pc : (s.pop).pc = s.pc := rfl
@[simp] theorem State.pop_stack : (s.pop).stack = s.stack := rfl
@[simp] theorem State.pop_sp : (s.pop).sp = s.sp - 1#8 := rfl
@[simp] theorem State.pop_dt : (s.pop).dt = s.dt := rfl
@[simp] theorem State.pop_st : (s.pop).st = s.st := rfl
@[simp] theorem State.pop_gateD : (s.pop).gateD = s.gateD := rfl
@[simp] theorem State.pop_gateS : (s.pop).gateS = s.gateS := rfl
@[simp] theorem State.pop_run : (s.pop).run = s.run := rfl
@[simp] theorem State.pop_fb : (s.pop).fb = s.fb := rfl
@[simp] theorem State.pop_mem : (s.pop).mem = s.mem := rfl
@[simp] theorem State.pop_delayPeriod : (s.pop).delayPeriod = s.delayPeriod := rfl
@[simp] theorem State.pop_soundPeriod : (s.pop).soundPeriod = s.soundPeriod := rfl
@[simp] theorem State.pop_keys : (s.pop).keys = s.keys := rfl
@[simp] theorem State.pop_inputs : (s.pop).inputs = s.inputs := rfl
@[simp] theorem State.pop_calls : (s.pop).calls = s.calls := rfl
@[simp] theorem State.pop_randoms : (s.pop).randoms = s.randoms := rfl
@[simp] theorem State.pop_drawn : (s.pop).drawn = s.drawn := rfl
@[simp] theorem State.pop_status : (s.pop).status = s.status := rfl

end Sys2Proof.Machine
end

