-- ==== Sys2Proof/Laws/Ops.lean ====
section
/-! SUPPORT. One lemma per shared operation that says everything it can do, for proofs to cite. -/

namespace Sys2Proof.Machine

theorem goto_eq (s : State) (target : Word) : s.goto target = .next (s.finish target) := rfl

theorem advance_eq (s : State) : s.advance = .next (s.finish (s.pc + 2#16)) := rfl

theorem skipIf_eq (s : State) (c : Bool) :
    s.skipIf c = .next (s.finish (if c then s.pc + 4#16 else s.pc + 2#16)) := rfl

theorem raise_eq_erred (s : State) (e : CoreError) : s.raise e = erred s e := rfl

theorem outAddr_eq (base : Nat) : outAddr base = max base 0x1000 := rfl

/-- The checked access: what follows if the range is inside memory, else the error (R36). -/
theorem guardRange_eq (s : State) (base len : Nat) (k : Result) :
    s.guardRange base len k =
      if base + len - 1 ≤ 0xFFF then k else .next (erred s (.memoryBounds (max base 0x1000))) := rfl

theorem guardRange_in {s : State} {base len : Nat} {k : Result} (h : base + len - 1 ≤ 0xFFF) :
    s.guardRange base len k = k := if_pos h

theorem guardRange_out {s : State} {base len : Nat} {k : Result} (h : ¬ base + len - 1 ≤ 0xFFF) :
    s.guardRange base len k = .next (erred s (.memoryBounds (max base 0x1000))) := if_neg h

/-- Everything a checked access can answer with a next state. -/
theorem guardRange_next {s t : State} {base len : Nat} {k : Result} (h : s.guardRange base len k = .next t) :
    (base + len - 1 ≤ 0xFFF ∧ k = .next t) ∨
    (¬ base + len - 1 ≤ 0xFFF ∧ t = erred s (.memoryBounds (max base 0x1000))) := by
  by_cases hb : base + len - 1 ≤ 0xFFF
  · rw [guardRange_in hb] at h
    exact .inl ⟨hb, h⟩
  · rw [guardRange_out hb] at h
    exact .inr ⟨hb, (Host.Outcome.next.inj h).symm⟩

/-- A push below the limit (R71). -/
theorem pushCall_room {s : State} (ret target : Word) (h : s.sp.toNat < 16) :
    s.pushCall ret target = .next ((s.push ret h).finish target) := by
  simp [State.pushCall, h, State.goto]

/-- A push at the limit (R71). -/
theorem pushCall_full {s : State} (ret target : Word) (h : s.sp.toNat = 16) :
    s.pushCall ret target = .next (erred s .stackOverflow) := by
  simp [State.pushCall, h, raise_eq_erred]

/-- A pop of a live frame (R70). -/
theorem popReturn_live {s : State} (h0 : s.sp.toNat ≠ 0) (h : s.sp.toNat - 1 < 16) :
    s.popReturn = .next (s.pop.finish s.stack[s.sp.toNat - 1]) := by
  simp [State.popReturn, h0, h, State.goto]

/-- A pop with no frame (R70). -/
theorem popReturn_empty {s : State} (h : s.sp.toNat = 0) : s.popReturn = .next (erred s .stackUnderflow) := by
  simp [State.popReturn, h, raise_eq_erred]

/-- Everything a push can answer with a next state. -/
theorem pushCall_next {s t : State} {ret target : Word} (ht : s.pushCall ret target = .next t) :
    (∃ h : s.sp.toNat < 16, t = (s.push ret h).finish target) ∨
    (s.sp.toNat = 16 ∧ t = erred s .stackOverflow) := by
  by_cases h : s.sp.toNat < 16
  · rw [pushCall_room ret target h] at ht
    exact .inl ⟨h, (Host.Outcome.next.inj ht).symm⟩
  · by_cases h16 : s.sp.toNat = 16
    · rw [pushCall_full ret target h16] at ht
      exact .inr ⟨h16, (Host.Outcome.next.inj ht).symm⟩
    · simp [State.pushCall, h, h16] at ht

/-- Everything a pop can answer with a next state. -/
theorem popReturn_next {s t : State} (ht : s.popReturn = .next t) :
    (s.sp.toNat ≠ 0 ∧ ∃ h : s.sp.toNat - 1 < 16,
      t = s.pop.finish s.stack[s.sp.toNat - 1]) ∨
    (s.sp.toNat = 0 ∧ t = erred s .stackUnderflow) := by
  by_cases h0 : s.sp.toNat = 0
  · rw [popReturn_empty h0] at ht
    exact .inr ⟨h0, (Host.Outcome.next.inj ht).symm⟩
  · by_cases h : s.sp.toNat - 1 < 16
    · rw [popReturn_live h0 h] at ht
      exact .inl ⟨h0, h, (Host.Outcome.next.inj ht).symm⟩
    · simp [State.popReturn, h0, h] at ht

/-! ## Operand forms and flags -/

theorem flagByte_eq (c : Bool) : flagByte c = if c = true then 1#8 else 0#8 := rfl

theorem zextAddr_toNat (nnn : Addr12) : (zextAddr nnn).toNat = nnn.toNat := by
  have := nnn.isLt
  simp [zextAddr]
  omega

theorem zextByte_toNat (b : Byte) : (zextByte b).toNat = b.toNat := by
  have := b.isLt
  simp [zextByte]
  omega

/-- Every write of I stores the low 12 bits (R13). -/
theorem maskI_toNat (w : Word) : (maskI w).toNat = w.toNat % 4096 := by
  simp only [maskI, BitVec.toNat_and]
  exact Nat.and_two_pow_sub_one_eq_mod w.toNat 12

theorem keyIndex_eq (b : Byte) : keyIndex b = b.toNat % 16 := by
  simp only [keyIndex, BitVec.toNat_and]
  exact Nat.and_two_pow_sub_one_eq_mod b.toNat 4

theorem keyPressed_eq (keys : Keys) (k : Nat) (h : k < 16) : keyPressed keys k = keys[k] := by
  simp [keyPressed, h]

end Sys2Proof.Machine
end

