-- ==== Sys2Proof/Laws/PerInstr.lean ====
section
/-! SUPPORT. Statements made per instruction. `RowMatch`: the canonical word of an instruction matches the `match` and
`mask` of its row of the opcode table (R53). -/

namespace Sys2Proof.Laws.RowMatch

/-- `(w & mask) = match` for the word `w` of `i` (R53). -/
def Statement (i : Instr) : Prop := encode i &&& i.rowMask = i.rowMatch

theorem cls : Statement .cls := by unfold Statement; decide
theorem ret : Statement .ret := by unfold Statement; decide
theorem call (nnn : Addr12) : Statement (.call nnn) := maskF000_addr _ _
theorem jp (nnn : Addr12) : Statement (.jp nnn) := maskF000_addr _ _
theorem jpV0 (nnn : Addr12) : Statement (.jpV0 nnn) := maskF000_addr _ _
theorem sys (nnn : Addr12) : Statement (.sys nnn) := maskF000_addr _ _
theorem exit : Statement .exit := by unfold Statement; decide
theorem seImm (x : RegNum) (kk : Byte) : Statement (.seImm x kk) := maskF000_byte _ _ _
theorem sneImm (x : RegNum) (kk : Byte) : Statement (.sneImm x kk) := maskF000_byte _ _ _
theorem seReg (x y : RegNum) : Statement (.seReg x y) := maskF000_nibbles _ _ _ _
theorem sneReg (x y : RegNum) : Statement (.sneReg x y) := maskF000_nibbles _ _ _ _
theorem ldImm (x : RegNum) (kk : Byte) : Statement (.ldImm x kk) := maskF000_byte _ _ _
theorem ldReg (x y : RegNum) : Statement (.ldReg x y) := maskF00F_nibbles _ _ _ _
theorem addImm (x : RegNum) (kk : Byte) : Statement (.addImm x kk) := maskF000_byte _ _ _
theorem orReg (x y : RegNum) : Statement (.orReg x y) := maskF00F_nibbles _ _ _ _
theorem andReg (x y : RegNum) : Statement (.andReg x y) := maskF00F_nibbles _ _ _ _
theorem xorReg (x y : RegNum) : Statement (.xorReg x y) := maskF00F_nibbles _ _ _ _
theorem addReg (x y : RegNum) : Statement (.addReg x y) := maskF00F_nibbles _ _ _ _
theorem subReg (x y : RegNum) : Statement (.subReg x y) := maskF00F_nibbles _ _ _ _
theorem subnReg (x y : RegNum) : Statement (.subnReg x y) := maskF00F_nibbles _ _ _ _
theorem shr (x : RegNum) : Statement (.shr x) := maskF00F_nibbles _ _ _ _
theorem shl (x : RegNum) : Statement (.shl x) := maskF00F_nibbles _ _ _ _
theorem ldI (nnn : Addr12) : Statement (.ldI nnn) := maskF000_addr _ _
theorem addI (x : RegNum) : Statement (.addI x) := maskF0FF_byte _ _ _
theorem ldGlyph (x : RegNum) : Statement (.ldGlyph x) := maskF0FF_byte _ _ _
theorem ldBcd (x : RegNum) : Statement (.ldBcd x) := maskF0FF_byte _ _ _
theorem storeRegs (x : RegNum) : Statement (.storeRegs x) := maskF0FF_byte _ _ _
theorem loadRegs (x : RegNum) : Statement (.loadRegs x) := maskF0FF_byte _ _ _
theorem rnd (x : RegNum) (kk : Byte) : Statement (.rnd x kk) := maskF000_byte _ _ _
theorem skp (x : RegNum) : Statement (.skp x) := maskF0FF_byte _ _ _
theorem sknp (x : RegNum) : Statement (.sknp x) := maskF0FF_byte _ _ _
theorem ldKey (x : RegNum) : Statement (.ldKey x) := maskF0FF_byte _ _ _
theorem ldFromDT (x : RegNum) : Statement (.ldFromDT x) := maskF0FF_byte _ _ _
theorem ldDT (x : RegNum) : Statement (.ldDT x) := maskF0FF_byte _ _ _
theorem ldST (x : RegNum) : Statement (.ldST x) := maskF0FF_byte _ _ _
theorem drw (x y : RegNum) (n : Nibble) : Statement (.drw x y n) := maskF000_nibbles _ _ _ _

end Sys2Proof.Laws.RowMatch
end

