-- ==== Sys2Proof/Laws/Registers.lean ====
section
/-! SUPPORT. Reading a register after each update of the state (R11, R81, R99). -/

namespace Sys2Proof.Machine

theorem reg_congr {s t : State} (h : t.v = s.v) (r : RegNum) : t.reg r = s.reg r := by
  simp [State.reg, h]

@[simp] theorem reg_setReg (s : State) (x r : RegNum) (b : Byte) :
    (s.setReg x b).reg r = if r = x then b else s.reg r := by
  by_cases h : r = x
  · simp [State.reg, h]
  · have hn : x.toNat ≠ r.toNat := fun e => h (BitVec.eq_of_toNat_eq e.symm)
    simp [State.reg, h, hn]

@[simp] theorem reg_setRegFlag (s : State) (x r : RegNum) (b f : Byte) :
    (s.setRegFlag x b f).reg r = if r = vF then f else if r = x then b else s.reg r := by
  simp [State.setRegFlag]

@[simp] theorem reg_setI (s : State) (w : Word) (r : RegNum) : (s.setI w).reg r = s.reg r := rfl
@[simp] theorem reg_setDT (s : State) (b : Byte) (r : RegNum) : (s.setDT b).reg r = s.reg r := rfl
@[simp] theorem reg_setST (s : State) (b : Byte) (r : RegNum) : (s.setST b).reg r = s.reg r := rfl
@[simp] theorem reg_store (s : State) (a : Nat) (bs : List Byte) (r : RegNum) : (s.store a bs).reg r = s.reg r := rfl
@[simp] theorem reg_setScreen (s : State) (f : Screen) (r : RegNum) : (s.setScreen f).reg r = s.reg r := rfl
@[simp] theorem reg_takeRandom (s : State) (r : RegNum) : s.takeRandom.reg r = s.reg r := rfl
@[simp] theorem reg_raise (s : State) (e : CoreError) (r : RegNum) : (s.raise e).reg r = s.reg r := rfl
@[simp] theorem reg_haltExit (s : State) (r : RegNum) : s.haltExit.reg r = s.reg r := rfl
@[simp] theorem reg_finish (s : State) (w : Word) (r : RegNum) : (s.finish w).reg r = s.reg r := rfl
@[simp] theorem reg_push (s : State) (w : Word) (h : s.sp.toNat < 16) (r : RegNum) :
    (s.push w h).reg r = s.reg r := rfl
@[simp] theorem reg_pop (s : State) (r : RegNum) : s.pop.reg r = s.reg r := rfl
@[simp] theorem reg_timerPhase (s : State) (now : Nat) (r : RegNum) : (s.timerPhase now).reg r = s.reg r := rfl
@[simp] theorem reg_takeInput (s : State) (r : RegNum) : s.takeInput.reg r = s.reg r := rfl

/-- V0..Vx are loaded, the registers above Vx kept (R99). -/
theorem reg_loadLowRegs (s : State) (x r : RegNum) (base : Nat) :
    (s.loadLowRegs x base).reg r = if r.toNat ≤ x.toNat then Mem.read s.mem (base + r.toNat) else s.reg r := by
  simp [State.reg, State.loadLowRegs]

/-- The bytes a block store moves are V0..Vx in order (R98). -/
theorem lowRegs_length (s : State) (x : RegNum) : (s.lowRegs x).length = x.toNat + 1 := by
  have := x.isLt
  simp [State.lowRegs]
  omega

theorem lowRegs_getElem (s : State) (x r : RegNum) (h : r.toNat < (s.lowRegs x).length) :
    (s.lowRegs x)[r.toNat] = s.reg r := by
  simp [State.lowRegs, State.reg]

end Sys2Proof.Machine
end

