-- ==== Sys2Proof/Laws/Screen.lean ====
section
/-! SUPPORT. What each operation of the blitter does to a pixel (R109, R110). -/

namespace Sys2Proof.Machine

@[simp] theorem clear_width (w h : Nat) : (Screen.clear w h).width = w := rfl
@[simp] theorem clear_height (w h : Nat) : (Screen.clear w h).height = h := rfl
@[simp] theorem toggle_width (f : Screen) (x y : Nat) : (f.toggle x y).width = f.width := rfl
@[simp] theorem toggle_height (f : Screen) (x y : Nat) : (f.toggle x y).height = f.height := rfl

theorem pixel_clear (w h x y : Nat) : (Screen.clear w h).pixel x y = false := by
  unfold Screen.pixel Screen.clear
  split <;> simp

/-- Reading a pixel of a framebuffer that has any. -/
theorem pixel_eq (f : Screen) (h : 0 < f.width ∧ 0 < f.height) (x y : Nat) :
    f.pixel x y = (f.cells[x % f.width]'(Nat.mod_lt _ h.1))[y % f.height]'(Nat.mod_lt _ h.2) := dif_pos h

/-- A framebuffer without pixels reads 0. -/
theorem pixel_empty (f : Screen) (h : ¬ (0 < f.width ∧ 0 < f.height)) (x y : Nat) : f.pixel x y = false := dif_neg h

/-- A toggle inverts the pixel at its wrapped coordinates and no other. -/
theorem pixel_toggle (f : Screen) (h : 0 < f.width ∧ 0 < f.height) (x y px py : Nat) :
    (f.toggle x y).pixel px py =
      if px % f.width = x % f.width ∧ py % f.height = y % f.height then !f.pixel px py else f.pixel px py := by
  rw [pixel_eq (f.toggle x y) h, pixel_eq f h]
  simp only [Screen.toggle, Screen.toggleCells, dif_pos h, pixel_eq f h]
  by_cases hx : px % f.width = x % f.width
  · by_cases hy : py % f.height = y % f.height
    · simp [hx, hy]
    · have hy' : ¬ y % f.height = py % f.height := fun e => hy e.symm
      simp [hx, hy, hy']
  · have hx' : ¬ x % f.width = px % f.width := fun e => hx e.symm
    simp [hx, hx']

/-- Coordinates wrap. -/
theorem pixel_mod (f : Screen) (x y : Nat) : f.pixel (x % f.width) (y % f.height) = f.pixel x y := by
  simp [Screen.pixel]

/-- Two framebuffers of one size with the same pixels are the same. -/
theorem screen_ext (f g : Screen) (hw : f.width = g.width) (hh : f.height = g.height)
    (h : ∀ x y, x < f.width → y < f.height → f.pixel x y = g.pixel x y) : f = g := by
  obtain ⟨w, k, c⟩ := f
  obtain ⟨w', k', d⟩ := g
  simp only at hw hh
  subst hw hh
  congr 1
  apply Vector.ext
  intro x hx
  apply Vector.ext
  intro y hy
  have hp : 0 < w ∧ 0 < k := ⟨by omega, by omega⟩
  have := h x y hx hy
  simpa [Screen.pixel, hp, Nat.mod_eq_of_lt hx, Nat.mod_eq_of_lt hy] using this

@[simp] theorem plot_screen (p : Blit) (x y : Nat) : (p.plot x y).screen = p.screen.toggle x y := rfl
@[simp] theorem plot_collided (p : Blit) (x y : Nat) :
    (p.plot x y).collided = (p.collided || p.screen.pixel x y) := rfl

/-! The blitter keeps the size. -/

theorem row_size (p : Blit) (b : Byte) (x0 y : Nat) :
    (p.row b x0 y).screen.width = p.screen.width ∧ (p.row b x0 y).screen.height = p.screen.height := by
  unfold Blit.row
  induction List.range 8 generalizing p with
  | nil => exact ⟨rfl, rfl⟩
  | cons col cols ih =>
    simp only [List.foldl_cons]
    split
    · exact ih (p.plot (x0 + col) y)
    · exact ih p

theorem rows_size (p : Blit) (x0 y : Nat) (bs : List Byte) :
    (p.rows x0 y bs).screen.width = p.screen.width ∧ (p.rows x0 y bs).screen.height = p.screen.height := by
  induction bs generalizing p y with
  | nil => exact ⟨rfl, rfl⟩
  | cons b bs ih =>
    have hr := row_size p b x0 y
    have hi := ih (p.row b x0 y) (y + 1)
    exact ⟨hi.1.trans hr.1, hi.2.trans hr.2⟩

@[simp] theorem blit_width (s : State) (x y : RegNum) (n : Nibble) : (s.blit x y n).screen.width = s.fb.width :=
  (rows_size _ _ _ _).1

@[simp] theorem blit_height (s : State) (x y : RegNum) (n : Nibble) : (s.blit x y n).screen.height = s.fb.height :=
  (rows_size _ _ _ _).2

end Sys2Proof.Machine
end

