-- ==== Sys2Proof/Laws/Step.lean ====
section
/-! SUPPORT. Everything a step can do (R65), and that a placed word is what the next step fetches. -/

namespace Sys2Proof.Machine

@[simp] theorem beginStep_pc (s : State) : s.beginStep.pc = s.pc := rfl
@[simp] theorem beginStep_mem (s : State) : s.beginStep.mem = s.mem := rfl
@[simp] theorem beginStep_fetchWord (s : State) : s.beginStep.fetchWord = s.fetchWord := rfl

/-- The fetch range check (R60): PC <= 0xFFE. -/
theorem inRange_two (base : Nat) : InRange base 2 ↔ base ≤ 0xFFE := by
  show base + 2 - 1 ≤ 0xFFF ↔ base ≤ 0xFFE
  omega

theorem fetchInstr_out {s : State} (h : ¬ s.pc.toNat ≤ 0xFFE) :
    s.fetchInstr = .error (.memoryBounds (outAddr s.pc.toNat)) := by
  rw [State.fetchInstr, if_neg (by rw [inRange_two]; exact h)]

theorem fetchInstr_ok {s : State} {i : Instr} (h : s.pc.toNat ≤ 0xFFE) (hd : decode s.fetchWord = .ok i) :
    s.fetchInstr = .ok i := by
  rw [State.fetchInstr, if_pos ((inRange_two _).mpr h), hd]

theorem fetchInstr_illegal {s : State} {r : DecodeReject} (h : s.pc.toNat ≤ 0xFFE)
    (hd : decode s.fetchWord = .error r) : s.fetchInstr = .error (.decodeError s.fetchWord) := by
  rw [State.fetchInstr, if_pos ((inRange_two _).mpr h), hd]

/-- The four cases of a step. -/
theorem step_cases (s : State) :
    (s.run = .halted ∧ step s = .next s.stepHalted) ∨
    (s.run = .running ∧ ¬ s.pc.toNat ≤ 0xFFE ∧
      step s = .next (s.beginStep.raise (.memoryBounds (outAddr s.pc.toNat)))) ∨
    (s.run = .running ∧ s.pc.toNat ≤ 0xFFE ∧ ∃ r, decode s.fetchWord = .error r ∧
      step s = .next (s.beginStep.raise (.decodeError s.fetchWord))) ∨
    (s.run = .running ∧ s.pc.toNat ≤ 0xFFE ∧ ∃ i, decode s.fetchWord = .ok i ∧ step s = exec i s.beginStep) := by
  cases hr : s.run with
  | halted => exact .inl ⟨rfl, by simp [step, hr]⟩
  | running =>
    right
    by_cases hp : s.pc.toNat ≤ 0xFFE
    · right
      cases hd : decode s.fetchWord with
      | error r => exact .inl ⟨rfl, hp, r, rfl, by simp [step, hr, fetchInstr_illegal (s := s.beginStep) hp hd]⟩
      | ok i => exact .inr ⟨rfl, hp, i, rfl, by simp [step, hr, fetchInstr_ok (s := s.beginStep) hp hd]⟩
    · exact .inl ⟨rfl, hp, by simp [step, hr, fetchInstr_out (s := s.beginStep) hp]⟩

/-! ## A word placed for the next fetch -/

theorem fetchPlace_le (s : State) : s.fetchPlace ≤ 0xFFE := by
  unfold State.fetchPlace
  split
  · rename_i h; exact (inRange_two _).mp h
  · decide

/-- The next step fetches exactly the word placed, whatever the state was. -/
theorem placeWord_fetchWord (s : State) (w : Word) : (s.placeWord w).fetchWord = w := by
  have hp := fetchPlace_le s
  have hpc : (BitVec.ofNat 16 s.fetchPlace).toNat = s.fetchPlace := by
    rw [BitVec.toNat_ofNat, Nat.mod_eq_of_lt (by omega)]
  have h0 := read_writeBlock_inside s.mem s.fetchPlace 0 [highByte w, lowByte w] (by simp)
  have h1 := read_writeBlock_inside s.mem s.fetchPlace 1 [highByte w, lowByte w] (by simp)
  simp only [Nat.add_zero] at h0
  simp only [State.fetchWord, State.placeWord, hpc, h0, h1]
  exact wordOfBytes_high_low w

theorem placeWord_running (s : State) (w : Word) : (s.placeWord w).run = .running := rfl

/-- `withFetchWord` does what the host asks of it: the next step runs the instruction of the word. -/
theorem step_withFetchWord (s : State) (nbits w : Nat) (i : Instr) (h : decodeTableWord nbits w = some i) :
    step (s.withFetchWord nbits w) = exec i (s.withFetchWord nbits w).beginStep := by
  have hf := placeWord_fetchWord s (tableWord nbits w)
  have hd := decode_of_decodeTableWord h
  have hp : (s.placeWord (tableWord nbits w)).pc.toNat ≤ 0xFFE := by
    have := fetchPlace_le s
    simp only [State.placeWord, BitVec.toNat_ofNat]
    omega
  have hi := fetchInstr_ok (s := (s.placeWord (tableWord nbits w)).beginStep) (i := i) hp
    (by rw [beginStep_fetchWord, hf]; exact hd)
  simp only [State.withFetchWord, step, placeWord_running, hi]

end Sys2Proof.Machine
end

