-- ==== Sys2Proof/Laws/Timers.lean ====
section
/-! SUPPORT. The laws of one timer phase (R121, R122). -/

namespace Sys2Proof.Machine

theorem gateFires_iff (period now gate : Nat) :
    gateFires period now gate = true ↔ gate ≤ now ∧ period ≤ now - gate := by
  simp [gateFires]

/-- A counter keeps its value or falls by one from a nonzero value, and falls only if the gate fires. -/
theorem tickCounter_cases (period now gate : Nat) (c : Byte) :
    (gateFires period now gate = true ∧ c ≠ 0#8 ∧ tickCounter period now gate c = c - 1#8) ∨
      tickCounter period now gate c = c := by
  unfold tickCounter
  split
  · rename_i h; exact .inl ⟨h.1, h.2, rfl⟩
  · exact .inr rfl

/-- The state an instruction executes in, in the terms of R121. -/
theorem beginStep_eq_atFetch (s : State) : s.beginStep = atFetch s := by
  simp [State.beginStep, State.takeInput, State.timerPhase, atFetch, tickCounter, tickGate, gateFires, and_assoc]

end Sys2Proof.Machine
end

