-- ==== Sys2Proof/Tests/Slice0.lean ====
section
/-! SUPPORT. Tests. The words and the expected results are those of spec/95_test_vectors.md (the section is named at
each group), of 30_encoding R53, and of the examples in the rules. Then, for every statement with hypotheses, concrete
states and operands that meet them (`witness_...`). -/

namespace Sys2Proof.Tests

open Sys2Proof.Machine

/-! ## Small states -/

/-- A snapshot with the listed keys pressed. -/
def keysOf (pressed : List Nat) : Keys := Vector.ofFn (fun k => pressed.contains k.val)

/-- The reset state with periods of 10 and one input: time 0, the listed keys pressed. -/
def start (pressed : List Nat) : State :=
  { State.reset with delayPeriod := 10, soundPeriod := 10, inputs := [{ now := 0, keys := keysOf pressed }] }

/-- `start` with no key pressed. -/
def base : State := start []

/-- `s` with the listed registers written. -/
def State.with (s : State) (regs : List (RegNum × Byte)) : State := regs.foldl (fun s p => s.setReg p.1 p.2) s

/-- One step at `s` with the word `w` at its PC leads to a next state of which `p` holds. -/
def runs (w : Word) (s : State) (p : State → Bool) : Bool :=
  match step (s.placeWord w) with
  | .next t => p t
  | _ => false

/-- One step at `s` with the word `w` at its PC raises `e`, with PC unchanged. -/
def raises (w : Word) (s : State) (e : CoreError) : Bool :=
  runs w s (fun t => t.status == some (.error e) && t.run == .halted && t.pc == s.pc)

/-! ## Well-formedness: each ill-formed term is refused (R50) -/

theorem test_wf_refuses_cls_as_sys : (Instr.sys 0x0E0).wellFormed = false := by decide
theorem test_wf_refuses_ret_as_sys : (Instr.sys 0x0EE).wellFormed = false := by decide
theorem test_wf_refuses_exit_as_sys : (Instr.sys 0x0FD).wellFormed = false := by decide
theorem test_wf_accepts_sys : (Instr.sys 0x0FB).wellFormed = true := by decide

/-! ## Decoding: a word for every constructor (R53), bits written out for one word of each family -/

theorem test_decode_bits :
    decode 0b0000000011101110 = .ok .ret ∧ decode 0b0010001100000000 = .ok (.call 0x300) ∧
    decode 0b0011001100010000 = .ok (.seImm 3 0x10) ∧ decode 0b0110000000000101 = .ok (.ldImm 0 0x05) ∧
    decode 0b1000000100100111 = .ok (.subnReg 1 2) ∧ decode 0b1111001000110011 = .ok (.ldBcd 2) ∧
    decode 0b1100001100001111 = .ok (.rnd 3 0x0F) ∧ decode 0b1110000110011110 = .ok (.skp 1) ∧
    decode 0b1101000100100101 = .ok (.drw 1 2 5) := by decide

theorem test_decode_control :
    decode 0x00E0 = .ok .cls ∧ decode 0x00EE = .ok .ret ∧ decode 0x2ABC = .ok (.call 0xABC) ∧
    decode 0x1FFF = .ok (.jp 0xFFF) ∧ decode 0xB300 = .ok (.jpV0 0x300) ∧ decode 0x00FD = .ok .exit := by decide

theorem test_decode_sys :
    decode 0x0000 = .ok (.sys 0x000) ∧ decode 0x0123 = .ok (.sys 0x123) ∧ decode 0x00FB = .ok (.sys 0x0FB) := by
  decide

theorem test_decode_skips :
    decode 0x3310 = .ok (.seImm 3 0x10) ∧ decode 0x4310 = .ok (.sneImm 3 0x10) ∧ decode 0x5121 = .ok (.seReg 1 2) ∧
    decode 0x9120 = .ok (.sneReg 1 2) := by decide

theorem test_decode_alu :
    decode 0x6AFE = .ok (.ldImm 0xA 0xFE) ∧ decode 0x8120 = .ok (.ldReg 1 2) ∧ decode 0x7002 = .ok (.addImm 0 2) ∧
    decode 0x8011 = .ok (.orReg 0 1) ∧ decode 0x8012 = .ok (.andReg 0 1) ∧ decode 0x8013 = .ok (.xorReg 0 1) ∧
    decode 0x8014 = .ok (.addReg 0 1) ∧ decode 0x8015 = .ok (.subReg 0 1) ∧ decode 0x8017 = .ok (.subnReg 0 1) ∧
    decode 0x8016 = .ok (.shr 0) ∧ decode 0x812E = .ok (.shl 1) := by decide

theorem test_decode_index :
    decode 0xA300 = .ok (.ldI 0x300) ∧ decode 0xF21E = .ok (.addI 2) ∧ decode 0xF129 = .ok (.ldGlyph 1) ∧
    decode 0xF133 = .ok (.ldBcd 1) ∧ decode 0xF255 = .ok (.storeRegs 2) ∧ decode 0xF265 = .ok (.loadRegs 2) := by
  decide

theorem test_decode_random_keys_timers :
    decode 0xC30F = .ok (.rnd 3 0x0F) ∧ decode 0xE19E = .ok (.skp 1) ∧ decode 0xE1A1 = .ok (.sknp 1) ∧
    decode 0xF40A = .ok (.ldKey 4) ∧ decode 0xF507 = .ok (.ldFromDT 5) ∧ decode 0xF315 = .ok (.ldDT 3) ∧
    decode 0xF318 = .ok (.ldST 3) ∧ decode 0xDF11 = .ok (.drw 0xF 1 1) := by decide

/-- The illegal words of L2.1. -/
theorem test_decode_illegal :
    decode 0x8008 = .error (.undefinedArith 8) ∧ decode 0x800F = .error (.undefinedArith 0xF) ∧
    decode 0xE000 = .error (.undefinedKeyTest 0) ∧ decode 0xE19F = .error (.undefinedKeyTest 0x9F) ∧
    decode 0xF000 = .error (.undefinedMisc 0) ∧ decode 0xF1FF = .error (.undefinedMisc 0xFF) ∧
    decode 0xFF75 = .error (.undefinedMisc 0x75) := by decide

theorem test_decode_bytes : decodeBytes [0x60, 0x05, 0x70] = .ok (.ldImm 0 5, [0x70]) ∧
    decodeBytes [0x60] = .error .truncated := by decide

/-! ## Steps, fetch and errors (L2.2, L2.9, L2.10) -/

theorem test_fetch_at_the_top : runs 0x0000 { base with pc := 0xFFE } (fun t => t.pc == 0x1000) = true := by decide

theorem test_fetch_past_the_end :
    (match step { base with pc := 0xFFF } with
      | .next t => t.status == some (.error (.memoryBounds 0x1000)) && t.pc == 0xFFF
      | _ => false) = true := by decide

theorem test_fetch_odd : runs 0x602A { base with pc := 0x201 } (fun t => t.reg 0 == 0x2A && t.pc == 0x203) = true := by
  decide

theorem test_illegal_keeps_timer_phase :
    runs 0x8008 { base with dt := 2, inputs := [{ now := 10, keys := keysOf [] }] }
      (fun t => t.dt == 1 && t.gateD == 10 && t.status == some (.error (.decodeError 0x8008)) && t.pc == 0x200)
      = true := by decide

theorem test_gate_fires_once :
    gateFires 10 9 0 = false ∧ tickCounter 10 10 0 5 = 4 ∧ tickGate 10 1000 10 = 1000 ∧ tickCounter 10 1000 10 4 = 3 ∧
    tickCounter 10 1010 1000 0 = 0 ∧ gateFires 10 1005 1010 = false := by decide

/-! ## Control flow (L2.3) -/

theorem test_cls : runs 0x00E0 { base with fb := base.fb.toggle 3 0 } (fun t => !t.fb.pixel 3 0) = true := by decide

theorem test_ret : runs 0x00EE { base with sp := 2, stack := base.stack.set 1 0x456 }
    (fun t => t.pc == 0x456 && t.sp == 1 && t.stack[1] == 0x456) = true := by decide

theorem test_ret_underflow : raises 0x00EE base .stackUnderflow = true := by decide

theorem test_call : runs 0x2ABC { base with pc := 0xFFE, sp := 15 }
    (fun t => t.pc == 0xABC && t.sp == 16 && t.stack[15] == 0x1000) = true := by decide

theorem test_call_overflow : raises 0x2ABC { base with sp := 16 } .stackOverflow = true := by decide

theorem test_jp : runs 0x1FFF base (fun t => t.pc == 0xFFF && t.status == some .ok) = true := by decide

theorem test_jpV0_no_mask : runs 0xBFFF (State.with base [(0, 0xFF)]) (fun t => t.pc == 0x10FE) = true := by decide

theorem test_jpV0_uses_v0 : runs 0xB3FF (State.with base [(0, 1), (3, 0x40)]) (fun t => t.pc == 0x400) = true := by
  decide

theorem test_sys : runs 0x0ABC base (fun t => t.pc == 0x202) = true := by decide

theorem test_exit : runs 0x00FD base (fun t => t.run == .halted && t.pc == 0x200 && t.status == some .exited)
    = true := by decide

/-! ## Skips (L2.4) -/

theorem test_seImm : runs 0x3310 (State.with base [(3, 0x10)]) (fun t => t.pc == 0x204) = true := by decide
theorem test_seImm_not : runs 0x3310 (State.with base [(3, 0x11)]) (fun t => t.pc == 0x202) = true := by decide
theorem test_sneImm : runs 0x4310 (State.with base [(3, 0x11)]) (fun t => t.pc == 0x204) = true := by decide
theorem test_sneImm_not : runs 0x4310 (State.with base [(3, 0x10)]) (fun t => t.pc == 0x202) = true := by decide
theorem test_seReg : runs 0x5120 (State.with base [(1, 0x7F), (2, 0x7F)]) (fun t => t.pc == 0x204) = true := by decide
theorem test_seReg_not : runs 0x5120 (State.with base [(1, 0x7F), (2, 0x7E)]) (fun t => t.pc == 0x202) = true := by
  decide
theorem test_sneReg : runs 0x9120 (State.with base [(1, 1), (2, 2)]) (fun t => t.pc == 0x204) = true := by decide
theorem test_sneReg_not : runs 0x9550 base (fun t => t.pc == 0x202) = true := by decide

/-! ## Loads and arithmetic (L2.5) -/

theorem test_ldImm : runs 0x6F07 (State.with base [(0xF, 1)]) (fun t => t.reg 0xF == 0x07) = true := by decide
theorem test_ldReg : runs 0x8120 (State.with base [(2, 0x3C)]) (fun t => t.reg 1 == 0x3C) = true := by decide
theorem test_addImm : runs 0x7002 (State.with base [(0, 0xFF)]) (fun t => t.reg 0 == 1 && t.reg 0xF == 0) = true := by
  decide
theorem test_or : runs 0x8011 (State.with base [(0, 0x0F), (1, 0xF0)]) (fun t => t.reg 0 == 0xFF) = true := by decide
theorem test_and : runs 0x8012 (State.with base [(0, 0x3C), (1, 0x0F)]) (fun t => t.reg 0 == 0x0C) = true := by decide
theorem test_xor : runs 0x8013 (State.with base [(0, 0xFF), (1, 0x0F)]) (fun t => t.reg 0 == 0xF0) = true := by decide
theorem test_add : runs 0x8014 (State.with base [(0, 0xFF), (1, 1)]) (fun t => t.reg 0 == 0 && t.reg 0xF == 1)
    = true := by decide
theorem test_add_to_vF : runs 0x8F14 (State.with base [(0xF, 1), (1, 0x38)]) (fun t => t.reg 0xF == 0) = true := by
  decide
theorem test_sub : runs 0x8015 (State.with base [(0, 3), (1, 5)]) (fun t => t.reg 0 == 0xFE && t.reg 0xF == 0)
    = true := by decide
theorem test_sub_self : runs 0x8005 (State.with base [(0, 0x42)]) (fun t => t.reg 0 == 0 && t.reg 0xF == 1) = true := by
  decide
theorem test_subn : runs 0x8017 (State.with base [(0, 5), (1, 3)]) (fun t => t.reg 0 == 0xFE && t.reg 0xF == 0)
    = true := by decide
theorem test_subn_no_borrow : runs 0x8017 (State.with base [(0, 3), (1, 5)])
    (fun t => t.reg 0 == 2 && t.reg 0xF == 1) = true := by decide
theorem test_shr : runs 0x8016 (State.with base [(0, 8), (1, 0xFF)])
    (fun t => t.reg 0 == 4 && t.reg 0xF == 0 && t.reg 1 == 0xFF) = true := by decide
theorem test_shr_of_vF : runs 0x8F06 (State.with base [(0xF, 3)]) (fun t => t.reg 0xF == 1) = true := by decide
theorem test_shl : runs 0x800E (State.with base [(0, 0x81)]) (fun t => t.reg 0 == 2 && t.reg 0xF == 1) = true := by
  decide
theorem test_shl_of_vF : runs 0x8F0E (State.with base [(0xF, 0x80)]) (fun t => t.reg 0xF == 1) = true := by decide

/-! ## Index and memory (L2.6) -/

theorem test_ldI : runs 0xAFFF base (fun t => t.i == 0xFFF) = true := by decide
theorem test_addI_wraps : runs 0xF01E (State.with { base with i := 0xFF0 } [(0, 0xFF)])
    (fun t => t.i == 0x0EF && t.reg 0xF == 0) = true := by decide
theorem test_ldGlyph : runs 0xF129 (State.with base [(1, 0x0A)]) (fun t => t.i == 0x032) = true := by decide
theorem test_ldGlyph_above : runs 0xF129 (State.with base [(1, 0xFF)]) (fun t => t.i == 0x4FB) = true := by decide
theorem test_ldBcd : runs 0xF133 (State.with { base with i := 0xFFD } [(1, 0x80)])
    (fun t => Mem.readBlock t.mem 0xFFD 3 == [1, 2, 8]) = true := by decide
theorem test_ldBcd_past : raises 0xF133 { base with i := 0xFFE } (.memoryBounds 0x1000) = true := by decide
theorem test_storeRegs : runs 0xF255 (State.with { base with i := 0x300 } [(0, 1), (1, 2), (2, 3), (3, 4)])
    (fun t => Mem.readBlock t.mem 0x300 4 == [1, 2, 3, 0] && t.i == 0x300) = true := by decide
theorem test_storeRegs_past : raises 0xFF55 { base with i := 0xFF1 } (.memoryBounds 0x1000) = true := by decide
theorem test_loadRegs : runs 0xF265 (State.with { base with i := 0x300, mem := Mem.writeBlock [] 0x300 [2, 5, 5, 9] }
    [(3, 7)]) (fun t => t.reg 0 == 2 && t.reg 2 == 5 && t.reg 3 == 7 && t.i == 0x300) = true := by decide
theorem test_loadRegs_past : raises 0xF265 { base with i := 0xFFE } (.memoryBounds 0x1000) = true := by decide

/-- Glyph 0 and glyph F as R31 lists them. -/
theorem test_glyphs : Mem.readBlock [] 0x000 5 = [0xF0, 0x90, 0x90, 0x90, 0xF0] ∧
    Mem.readBlock [] 0x04B 6 = [0xF0, 0x80, 0xF0, 0x80, 0x80, 0x00] := by decide

/-! ## Random, keys and timers (L2.7) -/

theorem test_rnd : runs 0xC30F { base with randoms := [0xA7, 0x11] } (fun t => t.reg 3 == 7 && t.randoms == [0x11])
    = true := by decide
theorem test_skp : runs 0xE19E (State.with (start [0xA]) [(1, 0x1A)]) (fun t => t.pc == 0x204) = true := by decide
theorem test_skp_not : runs 0xE19E (State.with base [(1, 5)]) (fun t => t.pc == 0x202) = true := by decide
theorem test_sknp : runs 0xE1A1 (State.with base [(1, 5)]) (fun t => t.pc == 0x204) = true := by decide
theorem test_sknp_not : runs 0xE1A1 (State.with (start [5]) [(1, 5)]) (fun t => t.pc == 0x202) = true := by decide
theorem test_ldKey : runs 0xF40A (start [0xA, 7]) (fun t => t.reg 4 == 7 && t.pc == 0x202) = true := by decide
theorem test_ldKey_waits : runs 0xF40A base (fun t => t.pc == 0x200 && t.status == some .ok && t.run == .running)
    = true := by decide
theorem test_ldFromDT : runs 0xF507 { base with dt := 0x3C } (fun t => t.reg 5 == 0x3C) = true := by decide
theorem test_ldFromDT_after_phase : runs 0xF007 { base with dt := 1, inputs := [{ now := 10, keys := keysOf [] }] }
    (fun t => t.reg 0 == 0 && t.dt == 0) = true := by decide
theorem test_ldDT : runs 0xF315 (State.with base [(3, 5)]) (fun t => t.dt == 5 && t.gateD == 0) = true := by decide
theorem test_ldST : runs 0xF318 (State.with base [(3, 2)]) (fun t => t.st == 2 && t.toneActive) = true := by decide

/-! ## Draw (L2.8) -/

theorem test_drw_wraps : runs 0xD011 (State.with { base with i := 0x300, mem := [(0x300, 0xFF)] } [(0, 60)])
    (fun t => t.fb.pixel 63 0 && t.fb.pixel 3 0 && !t.fb.pixel 4 0 && !t.fb.pixel 59 0 && t.reg 0xF == 0) = true := by
  decide
theorem test_drw_collides : runs 0xDF11
    (State.with { base with i := 0xFFF, mem := [(0xFFF, 0x80)], fb := base.fb.toggle 5 0 } [(0xF, 5)])
    (fun t => !t.fb.pixel 5 0 && t.reg 0xF == 1) = true := by decide

/-- R110's degenerate case: on 4 columns the bits 3 to 0 of 0xFF hit columns 0 to 3 a second time. -/
theorem test_blit_narrow :
    let p := Blit.rows { screen := Screen.clear 4 8, collided := false } 0 0 [0xFF]
    p.screen = Screen.clear 4 8 ∧ p.collided = true := by decide

/-- Another size (R5): on 128 columns, column 100 does not wrap to 36. -/
theorem test_blit_wide :
    let p := Blit.rows { screen := Screen.clear 128 64, collided := false } 100 40 [0x80]
    p.screen.pixel 100 40 = true ∧ p.screen.pixel 36 8 = false ∧ p.collided = false := by decide

/-! ## Reset and load (L2.9, L2.11) -/

theorem test_load_empty : (base.hostLoad [] 7).status = some .ok ∧ (base.hostLoad [] 7).gateS = 7 := by decide
theorem test_load_too_large : (base.hostLoad (List.replicate 3585 0) 7).status = some (.error (.romTooLarge 3585)) := by
  rw [State.hostLoad, if_pos (by rw [List.length_replicate]; decide), List.length_replicate]
  rfl
set_option maxRecDepth 20000 in
theorem test_load_keeps_old_bytes :
    Mem.readBlock (({ base with mem := [(0x201, 7), (0x202, 9)] } : State).hostLoad [0x60] 0).mem 0x200 3
      = [0x60, 7, 9] := by decide

/-! ## Witnesses: for each statement with hypotheses, states and operands that meet them together. Each theorem names
its statement after `witness_`; several clauses have several theorems, at the values where the clauses meet. -/

theorem witness_DecodeEncodeRoundTrip : (Instr.sys 0x0FB).WellFormed ∧ (Instr.drw 0xF 0xF 0xF).WellFormed := by decide

theorem witness_DecodedInstructionEncodesBack :
    decode 0x512F = .ok (.seReg 1 2) ∧ canonicalWord 0x512F = 0x5120 ∧ decode 0x8AB6 = .ok (.shr 0xA) := by decide

theorem witness_DecodedWordMatchesItsRow : decode 0xF165 = .ok (.loadRegs 1) ∧ decode 0x0FFF = .ok (.sys 0xFFF) := by
  decide

theorem witness_ConstructedMachineValues_indices : 15 < 16 ∧ 79 < 80 ∧ 0x050 ≤ 0x050 := by decide

theorem witness_LoadCopiesTheRomOrHalts_fits :
    (List.replicate 3584 (0x12 : Byte)).length ≤ 3584 ∧ ([] : List Byte).length ≤ 3584 := by
  rw [List.length_replicate]; decide

theorem witness_LoadCopiesTheRomOrHalts_too_large : 3584 < (List.replicate 3585 (0x12 : Byte)).length := by
  rw [List.length_replicate]; decide

theorem witness_HaltedStepDoesNothing : ({ base with run := .halted } : State).run = .halted := rfl

theorem witness_StepRunsDecodedInstruction :
    base.run = .running ∧ base.pc.toNat ≤ 0xFFE ∧
    decode (wordOfBytes (Mem.read base.mem base.pc.toNat) (Mem.read base.mem (base.pc.toNat + 1))) = .ok (.sys 0) := by
  decide

/-- At the last address a fetch may use. -/
theorem witness_StepRunsDecodedInstruction_top : ({ base with pc := 0xFFE } : State).pc.toNat ≤ 0xFFE := by decide

theorem witness_FetchPastTheEndHalts :
    ({ base with pc := 0xFFF } : State).run = .running ∧ 0xFFE < ({ base with pc := 0xFFF } : State).pc.toNat := by
  decide

/-- Memory holding the illegal word 0x8008 at 0x200. -/
def illegal : State := { base with mem := [(0x200, 0x80), (0x201, 0x08)] }

theorem witness_IllegalWordHalts :
    illegal.run = .running ∧ illegal.pc.toNat ≤ 0xFFE ∧
    (0x8008 : Word) = Mem.read illegal.mem illegal.pc.toNat ++ Mem.read illegal.mem (illegal.pc.toNat + 1) ∧
    decode 0x8008 = .error (.undefinedArith 8) := by decide

/-- L2.6, last row, and the same at the top of memory. -/
theorem witness_StoredWordIsFetchedNext :
    (let s : State := { base with i := 0x202 }
     s.pc.toNat ≤ 0xFFC ∧ s.i.toNat = s.pc.toNat + 2 ∧ 1 ≤ (1 : RegNum).toNat ∧
       s.i.toNat + (1 : RegNum).toNat ≤ 0xFFF) ∧
    (let s : State := { base with pc := 0xFFC, i := 0xFFE }
     s.pc.toNat ≤ 0xFFC ∧ s.i.toNat = s.pc.toNat + 2 ∧ 1 ≤ (1 : RegNum).toNat ∧
       s.i.toNat + (1 : RegNum).toNat ≤ 0xFFF) := by decide

theorem witness_RetPopsTheReturnAddress :
    (({ base with sp := 1 } : State).sp.toNat - 1 < 16 ∧ ({ base with sp := 1 } : State).sp.toNat ≠ 0) ∧
    (({ base with sp := 16 } : State).sp.toNat - 1 < 16 ∧ ({ base with sp := 16 } : State).sp.toNat ≠ 0) ∧
    base.sp.toNat = 0 := by decide

theorem witness_CallPushesTheNextAddress :
    base.sp.toNat < 16 ∧ ({ base with sp := 15 } : State).sp.toNat < 16 ∧ ({ base with sp := 16 } : State).sp.toNat = 16 := by
  decide

theorem witness_NestedCallsReturn :
    ([0x300, 0xFFF] : List Addr12) ≠ [] ∧ base.sp.toNat + ([0x300, 0xFFF] : List Addr12).length ≤ 16 ∧
    ({ base with sp := 15 } : State).sp.toNat + ([0x300] : List Addr12).length ≤ 16 := by decide

theorem witness_BcdStoresDigits :
    ({ base with i := 0xFFD } : State).i.toNat ≤ 0xFFD ∧ 0xFFD < ({ base with i := 0xFFE } : State).i.toNat := by decide

theorem witness_StoreRegistersToMemory :
    ({ base with i := 0xFF0 } : State).i.toNat + (0xF : RegNum).toNat ≤ 0xFFF ∧
    0xFFF < ({ base with i := 0xFF1 } : State).i.toNat + (0xF : RegNum).toNat ∧
    (0 : RegNum).toNat ≤ (0xF : RegNum).toNat := by decide

theorem witness_LoadRegistersFromMemory :
    ({ base with i := 0xFFF } : State).i.toNat + (0 : RegNum).toNat ≤ 0xFFF ∧
    0xFFF < ({ base with i := 0xFFE } : State).i.toNat + (2 : RegNum).toNat := by decide

theorem witness_StoreThenLoadRestores : ({ base with i := 0x300 } : State).i.toNat + (0xF : RegNum).toNat ≤ 0xFFF := by
  decide

theorem witness_RndTakesOneByte :
    ({ base with randoms := [0xA7] } : State).randoms = [0xA7] ∧ base.randoms = [] ∧ (0 : Byte) = 0 := by decide

theorem witness_SkipOnKey : 0xA < 16 ∧ 0xA = ((State.with base [(1, 0x1A)]).reg 1).toNat % 16 := by decide

theorem witness_KeyWaitReceivesLowestKey_pressed :
    ∃ s : State, s.keys[7] = true ∧ ∀ (j : Nat) (hj : j < 7), s.keys[j] = false := by
  refine ⟨{ base with keys := keysOf [7, 0xA] }, by decide, ?_⟩
  intro j hj
  have : j = 0 ∨ j = 1 ∨ j = 2 ∨ j = 3 ∨ j = 4 ∨ j = 5 ∨ j = 6 := by omega
  rcases this with rfl | rfl | rfl | rfl | rfl | rfl | rfl <;> rfl

theorem witness_KeyWaitReceivesLowestKey_none : ∀ (k : Nat) (h : k < 16), base.keys[k] = false := by
  intro k h
  simp [base, start, State.reset]

theorem witness_DelayTimerIsRead :
    let s : State := { base with mem := [(0x200, 0xF5), (0x201, 0x07)] }
    s.run = .running ∧ s.pc.toNat ≤ 0xFFE ∧ decode s.fetchWord = .ok (.ldFromDT 5) := by decide

/-- n = 0 needs nothing of I; with n = 1 the sprite may be the last byte. -/
theorem witness_DrawInvertsCoveredPixels :
    ((0 : Nibble) = 0#4 ∨ ({ base with i := 0xFFF } : State).i.toNat + (0 : Nibble).toNat - 1 ≤ 0xFFF) ∧
    ((1 : Nibble) = 0#4 ∨ ({ base with i := 0xFFF } : State).i.toNat + (1 : Nibble).toNat - 1 ≤ 0xFFF) ∧
    8 ≤ base.fb.width ∧ (0xF : Nibble).toNat ≤ base.fb.height := by decide

/-- The least size of the closed form, n = 2, and a size below it. -/
theorem witness_DrawTogglesOncePerLanding :
    let s : State := { base with fb := Screen.clear 4 1 }
    ((2 : Nibble) = 0#4 ∨ s.i.toNat + (2 : Nibble).toNat - 1 ≤ 0xFFF) ∧ (landings s 0 0 2).count (0, 0) = 2 ∧
    8 ≤ (Screen.clear 8 2).width ∧ (2 : Nibble).toNat ≤ (Screen.clear 8 2).height := by decide

/-- Glyph 0's top row covers pixel (0, 0), and not pixel (4, 0); the pixel is clear, or set. -/
theorem witness_DrawInvertsCoveredPixels_covers :
    Covers base 0 0 1 0 0 ∧ ¬ Covers base 0 0 1 4 0 ∧ base.fb.pixel 0 0 = false ∧
    (base.fb.toggle 0 0).pixel 0 0 = true := by
  refine ⟨⟨0, 0, by decide, by decide, by decide, by decide, by decide⟩, ?_, by decide, by decide⟩
  rintro ⟨row, col, hr, hc, hb, hx, _⟩
  have h0 : row = 0 := by
    have : (1 : Nibble).toNat = 1 := rfl
    omega
  have h4 : col = 4 := by
    have hr0 : (base.reg 0).toNat = 0 := by decide
    have hw : base.fb.width = 64 := rfl
    rw [hr0, hw] at hx
    omega
  subst h0 h4
  exact absurd hb (by decide)

theorem witness_DrawPastTheEndHalts :
    (2 : Nibble) ≠ 0#4 ∧ 0xFFF < ({ base with i := 0xFFF } : State).i.toNat + (2 : Nibble).toNat - 1 := by decide

/-- The second state may be the first's successor itself. -/
theorem witness_DrawTwiceErases :
    ∃ t, exec (.drw 0 1 1) base = .next t ∧ t.mem = base.mem ∧ t.i = base.i ∧ t.reg 0 = base.reg 0 ∧
      t.reg 1 = base.reg 1 :=
  ⟨_, rfl, rfl, rfl, by decide, by decide⟩

theorem witness_InstructionCompletesOrErrsPrecisely :
    base.sp.toNat ≤ 16 ∧ errorOf .ret base = some .stackUnderflow ∧ errorOf .cls base = none ∧
    ({ base with sp := 16 } : State).sp.toNat ≤ 16 ∧ errorOf (.call 0) { base with sp := 16 } = some .stackOverflow ∧
    errorOf (.call 0) { base with sp := 15 } = none := by decide

theorem witness_WritesStayInTheAccessMatrix : ∃ t, exec (.addReg 1 2) base = .next t := ⟨_, rfl⟩

theorem witness_PcFollowsTheUpdateTable :
    (∃ t, exec (.jp 0x300) base = .next t) ∧ errorOf (.jp 0x300) base = none ∧
    (∃ t, exec .ret base = .next t) ∧ errorOf .ret base ≠ none :=
  ⟨⟨_, rfl⟩, rfl, ⟨_, rfl⟩, by decide⟩

theorem witness_OnlyDrawReadsTheScreen :
    (∀ x y n, Instr.cls ≠ .drw x y n) ∧ SameButScreen base { base with fb := base.fb.toggle 3 0 } ∧
    ∃ t, exec .cls base = .next t :=
  ⟨by simp, rfl, ⟨_, rfl⟩⟩

/-- Entry 1 is dead with one live frame; RET pops entry 0. -/
theorem witness_DeadStackEntriesAreUnobservable :
    SameButDeadEntries { base with sp := 1 } { base with sp := 1, stack := base.stack.set 1 0x456 } ∧
    ∃ t, exec .ret { base with sp := 1 } = .next t := by
  refine ⟨⟨rfl, ?_⟩, ⟨_, rfl⟩⟩
  intro k h hk
  have : k = 0 := by
    have h1 : ({ base with sp := 1 } : State).sp.toNat = 1 := rfl
    omega
  subst this
  rfl

theorem witness_StepKeepsInvariant : base.Inv ∧ ∃ t, step base = .next t := by
  refine ⟨⟨by decide, by decide, by decide, ?_, by decide, by decide, by decide, by decide, by decide⟩, ⟨_, rfl⟩⟩
  simp [base, start, State.reset]

theorem witness_StepNeverStops : base.Inv := witness_StepKeepsInvariant.1

theorem witness_ReachableStatesMeetInvariant :
    Reachable (State.constructed 5 64 32 10 10 [] []) ∧
    Reachable ({ State.constructed 5 64 32 10 10 [] [] with inputs := [], randoms := [0xA7] }).hostHalt := by
  have h : Reachable (State.constructed 5 64 32 10 10 [] []) := .construct 5 64 32 10 10 [] [] (by decide) (by decide) (by decide) (by decide)
  exact ⟨h, .command .halt _ _ (.supply _ [] [0xA7] h) rfl⟩

/-- The reset state is the machine constructed at time 0. -/
theorem witness_reset_is_constructed :
    State.constructed 0 64 32 Config.delayPeriod Config.soundPeriod [] [] = State.reset := rfl

end Sys2Proof.Tests
end

section
/-! PROOFS. The frame of the state updates, an instruction that ends by setting PC, and the statements about CLS and JP
(41_control_flow R69, R72). -/

namespace Sys2Proof.Machine

/-! ## Frames -/

/-- The empty update is in every footprint. -/
theorem framedBy_refl (f : Footprint) (s : State) : FramedBy f s s := by simp [FramedBy]

/-- No frame speaks of PC or the status, the two fields that ending an instruction writes (R25). -/
theorem framedBy_finish {f : Footprint} {s t : State} (h : FramedBy f s t) (w : Word) : FramedBy f s (t.finish w) := h

/-- A footprint with the screen allows any new framebuffer of the same size. -/
theorem framedBy_setScreen {f : Footprint} {s t : State} {g : Screen} (h : FramedBy f s t) (hf : f.screen = true)
    (hw : g.width = t.fb.width) (hh : g.height = t.fb.height) : FramedBy f s (t.setScreen g) := by
  obtain ⟨regs, index, entries, sp, delay, sound, -, width, height, rest⟩ := h
  have screen : f.screen = false → g = s.fb := by simp [hf]
  exact ⟨regs, index, entries, sp, delay, sound, screen, hw.trans width, hh.trans height, rest⟩

/-! ## Completion -/

/-- An instruction that updates `s` to `t` and then goes to `w` completes, if `t` is framed and still in the same run
state. -/
theorem completes_of_goto {i : Instr} {s t : State} {f : Footprint} {w : Word} {P : State → Prop}
    (hexec : exec i s = t.goto w) (hrun : t.run = s.run) (hframe : FramedBy f s t) (hP : P (t.finish w)) :
    Completes i s f P :=
  ⟨t.finish w, hexec.trans (goto_eq t w), t.finish_status w, hrun, framedBy_finish hframe w, hP⟩

/-! ## CLS and JP -/

theorem exec_cls (s : State) :
    exec .cls s = (s.setScreen (Screen.clear s.fb.width s.fb.height)).goto (s.pc + 2#16) := rfl

theorem exec_jp (nnn : Addr12) (s : State) : exec (.jp nnn) s = s.goto (zextAddr nnn) := rfl

/-- Settles O16: CLS replaces the framebuffer by the clear one of its size, which is inside the footprint, and
advances. -/
theorem clsClearsTheScreen : Obligations.ClsClearsTheScreen := by
  intro s
  have hframe : FramedBy { screen := true } s (s.setScreen (Screen.clear s.fb.width s.fb.height)) :=
    framedBy_setScreen (framedBy_refl _ s) rfl (clear_width _ _) (clear_height _ _)
  exact completes_of_goto (exec_cls s) rfl hframe ⟨rfl, pixel_clear s.fb.width s.fb.height⟩

/-- Settles O20: JP updates nothing before it goes to `nnn`, whose zero extension keeps its value. -/
theorem jumpSetsPc : Obligations.JumpSetsPc := by
  intro s nnn
  exact completes_of_goto (exec_jp nnn s) rfl (framedBy_refl {} s) (zextAddr_toNat nnn)

end Sys2Proof.Machine
end

section
/-! PROOFS. An instruction that ends in a conditional skip, and the statement about SE and SNE with an immediate
(42_skips R76, R77). -/

namespace Sys2Proof.Machine

/-! ## Skips -/

/-- An instruction that only skips on `c` completes with an empty footprint; `hpc` may spell its next PC anew. -/
theorem completes_of_skipIf {i : Instr} {s : State} {c : Bool} {w : Word} (hexec : exec i s = s.skipIf c)
    (hpc : (if c then s.pc + 4#16 else s.pc + 2#16) = w) : Completes i s {} (fun t => t.pc = w) :=
  completes_of_goto hexec rfl (framedBy_refl {} s) hpc

/-! ## SE and SNE with an immediate -/

theorem exec_seImm (x : RegNum) (kk : Byte) (s : State) : exec (.seImm x kk) s = s.skipIf (s.reg x == kk) := rfl

theorem exec_sneImm (x : RegNum) (kk : Byte) (s : State) : exec (.sneImm x kk) s = s.skipIf (s.reg x != kk) := rfl

/-- Settles O24: both instructions only skip, SE on equality and SNE on its negation, which swaps the two targets. -/
theorem skipOnImmediate : Obligations.SkipOnImmediate := by
  intro s x kk
  constructor
  · exact completes_of_skipIf (exec_seImm x kk s) (by simp only [beq_iff_eq])
  · exact completes_of_skipIf (exec_sneImm x kk s) (by simp only [bne_iff_ne, ne_eq, ite_not])

end Sys2Proof.Machine
end

section
/-! PROOFS. An instruction that writes one register and no flag, and the statements about the loads, ADD with an
immediate, and OR, AND, XOR (43_alu R82 to R87). -/

namespace Sys2Proof.Machine

/-! ## Writing one register -/

/-- A footprint with `x` allows any byte in `Vx`. -/
theorem framedBy_setReg {f : Footprint} {s t : State} {x : RegNum} {b : Byte} (h : FramedBy f s t)
    (hx : x ∈ f.regs) : FramedBy f s (t.setReg x b) := by
  obtain ⟨regs, rest⟩ := h
  refine ⟨fun r hr => ?_, rest⟩
  have hne : r ≠ x := fun e => hr (e ▸ hx)
  rw [reg_setReg, if_neg hne, regs r hr]

/-- An instruction that writes `b` to `Vx` and advances completes; its result is what `Vx = b` and PC + 2 give. -/
theorem completes_of_setReg {i : Instr} {s : State} {x : RegNum} {b : Byte} {P : State → Prop}
    (hexec : exec i s = (s.setReg x b).advance) (hP : ∀ t : State, t.reg x = b → t.pc = s.pc + 2#16 → P t) :
    Completes i s { regs := [x] } P := by
  have hframe : FramedBy { regs := [x] } s (s.setReg x b) :=
    framedBy_setReg (framedBy_refl _ s) (List.mem_singleton_self x)
  have hreg : ((s.setReg x b).finish (s.pc + 2#16)).reg x = b := by rw [reg_finish, reg_setReg, if_pos rfl]
  exact completes_of_goto hexec rfl hframe (hP _ hreg rfl)

/-! ## LD Vx, kk; LD Vx, Vy; ADD Vx, kk -/

theorem exec_ldImm (x : RegNum) (kk : Byte) (s : State) : exec (.ldImm x kk) s = (s.setReg x kk).advance := rfl

theorem exec_ldReg (x y : RegNum) (s : State) : exec (.ldReg x y) s = (s.setReg x (s.reg y)).advance := rfl

theorem exec_addImm (x : RegNum) (kk : Byte) (s : State) :
    exec (.addImm x kk) s = (s.setReg x (s.reg x + kk)).advance := rfl

theorem decode_ldImm (x : RegNum) (kk : Byte) : decode (0x6#4 ++ x ++ kk) = .ok (.ldImm x kk) := by
  simp [decode, fieldO_byte, fieldX_byte, fieldKK_byte]

theorem decode_addImm (x : RegNum) (kk : Byte) : decode (0x7#4 ++ x ++ kk) = .ok (.addImm x kk) := by
  simp [decode, fieldO_byte, fieldX_byte, fieldKK_byte]

/-- Settles O26: each instruction writes only `Vx`, ADD the sum of bytes, which is the sum modulo 256; the two words
decode by their category alone. -/
theorem loadsAndImmediateAdd : Obligations.LoadsAndImmediateAdd := by
  intro s x y kk
  refine ⟨?ldImm, ?ldReg, ?addImm, decode_ldImm x kk, decode_addImm x kk⟩
  case ldImm => exact completes_of_setReg (exec_ldImm x kk s) fun _ hreg hpc => ⟨hreg, hpc⟩
  case ldReg => exact completes_of_setReg (exec_ldReg x y s) fun _ hreg hpc => ⟨hreg, hpc⟩
  case addImm =>
    refine completes_of_setReg (exec_addImm x kk s) fun _ hreg hpc => ⟨?_, hpc⟩
    rw [hreg, BitVec.toNat_add]

/-! ## OR, AND and XOR -/

theorem exec_orReg (x y : RegNum) (s : State) :
    exec (.orReg x y) s = (s.setReg x (s.reg x ||| s.reg y)).advance := rfl

theorem exec_andReg (x y : RegNum) (s : State) :
    exec (.andReg x y) s = (s.setReg x (s.reg x &&& s.reg y)).advance := rfl

theorem exec_xorReg (x y : RegNum) (s : State) :
    exec (.xorReg x y) s = (s.setReg x (s.reg x ^^^ s.reg y)).advance := rfl

/-- Settles O27: each instruction writes only `Vx`, a bitwise operation of the two old bytes, whose bit `k` is that
operation of their bits `k`. -/
theorem bitwiseOperations : Obligations.BitwiseOperations := by
  intro s x y
  refine ⟨?or, ?and, ?xor⟩
  case or =>
    refine completes_of_setReg (exec_orReg x y s) fun _ hreg hpc => ⟨hpc, fun k _ => ?_⟩
    rw [hreg, BitVec.getLsbD_or]
  case and =>
    refine completes_of_setReg (exec_andReg x y s) fun _ hreg hpc => ⟨hpc, fun k _ => ?_⟩
    rw [hreg, BitVec.getLsbD_and]
  case xor =>
    refine completes_of_setReg (exec_xorReg x y s) fun _ hreg hpc => ⟨hpc, fun k _ => ?_⟩
    rw [hreg, BitVec.getLsbD_xor]

end Sys2Proof.Machine
end

section
/-! PROOFS. An instruction that writes I, and the statement about LD I with an address and with a glyph
(44_index_memory R93, R95). -/

namespace Sys2Proof.Machine

/-! ## Writing I -/

/-- A footprint with the index allows any write of I. -/
theorem framedBy_setI {f : Footprint} {s t : State} {w : Word} (h : FramedBy f s t) (hf : f.index = true) :
    FramedBy f s (t.setI w) := by
  obtain ⟨regs, -, rest⟩ := h
  exact ⟨regs, by simp [hf], rest⟩

/-- An instruction that writes `w` to I and advances completes; I receives the low 12 bits of `w` (R13), and `hn` may
spell their value anew. -/
theorem completes_of_setI {i : Instr} {s : State} {w : Word} {n : Nat} (hexec : exec i s = (s.setI w).advance)
    (hn : w.toNat % 4096 = n) :
    Completes i s { index := true } (fun t => t.i.toNat = n ∧ t.pc = s.pc + 2#16) :=
  completes_of_goto hexec rfl (framedBy_setI (framedBy_refl _ s) rfl) ⟨(maskI_toNat w).trans hn, rfl⟩

/-! ## LD I, addr and LD I, F(Vx) -/

theorem exec_ldI (nnn : Addr12) (s : State) : exec (.ldI nnn) s = (s.setI (zextAddr nnn)).advance := rfl

theorem exec_ldGlyph (x : RegNum) (s : State) : exec (.ldGlyph x) s = (s.setI (glyphAddr (s.reg x))).advance := rfl

/-- Five times a byte is at most 0x4FB, so the 16-bit product does not wrap (R95). -/
theorem glyphAddr_toNat (b : Byte) : (glyphAddr b).toNat = b.toNat * 5 := by
  have hb := b.isLt
  rw [glyphAddr, BitVec.toNat_mul, zextByte_toNat, BitVec.toNat_ofNat]
  omega

/-- Settles O31: both instructions only write I, an address below 0x1000, which the 12-bit mask of the write keeps. -/
theorem indexLoads : Obligations.IndexLoads := by
  intro s nnn x
  constructor
  · have hn := nnn.isLt
    exact completes_of_setI (exec_ldI nnn s) (by rw [zextAddr_toNat, Nat.mod_eq_of_lt hn])
  · have hb := (s.reg x).isLt
    exact completes_of_setI (exec_ldGlyph x s) (by rw [glyphAddr_toNat, Nat.mod_eq_of_lt (by omega)])

end Sys2Proof.Machine
end

section
/-! PROOFS. The decoder and the encoder (30_encoding R49 to R55): what each category decodes, what the word of a decoded
instruction is, and the statements about decoding and encoding. -/

namespace Sys2Proof

/-! ## The words of a category (R49) -/

theorem decode_category0 (nnn : Addr12) : decode (0x0#4 ++ nnn) = .ok (decodeSys nnn) := by
  simp [decode, fieldO_addr, fieldNNN_addr]

theorem decode_category8 (x y : RegNum) (n : Nibble) : decode (0x8#4 ++ x ++ y ++ n) = decodeArith x y n := by
  simp [decode, fieldO_nibbles, fieldX_nibbles, fieldY_nibbles, fieldN_nibbles]

theorem decode_categoryE (x : RegNum) (kk : Byte) : decode (0xE#4 ++ x ++ kk) = decodeKeyTest x kk := by
  simp [decode, fieldO_byte, fieldX_byte, fieldKK_byte]

theorem decode_categoryF (x : RegNum) (kk : Byte) : decode (0xF#4 ++ x ++ kk) = decodeMisc x kk := by
  simp [decode, fieldO_byte, fieldX_byte, fieldKK_byte]

theorem decode_seReg (x y : RegNum) (n : Nibble) : decode (0x5#4 ++ x ++ y ++ n) = .ok (.seReg x y) := by
  simp [decode, fieldO_nibbles, fieldX_nibbles, fieldY_nibbles]

theorem decode_sneReg (x y : RegNum) (n : Nibble) : decode (0x9#4 ++ x ++ y ++ n) = .ok (.sneReg x y) := by
  simp [decode, fieldO_nibbles, fieldX_nibbles, fieldY_nibbles]

/-- SYS is what category 0 leaves over (R50). -/
theorem decodeSys_of_wellFormed {nnn : Addr12} (h : (Instr.sys nnn).WellFormed) : decodeSys nnn = .sys nnn := by
  simp [Instr.WellFormed, Instr.wellFormed, sysExcept] at h
  simp [decodeSys, h]

/-- Settles O2: the category of the encoded word selects the secondary decoder, and that one reads back the operands. -/
theorem decodeEncodeRoundTrip : Obligations.DecodeEncodeRoundTrip := by
  intro i hwf
  cases i
  case cls | ret | exit => decide
  case sys nnn => exact (decode_category0 nnn).trans (by rw [decodeSys_of_wellFormed hwf])
  case call | jp | jpV0 | ldI => simp [encode, decode, fieldO_addr, fieldNNN_addr]
  case seImm | sneImm | ldImm | addImm | rnd => simp [encode, decode, fieldO_byte, fieldX_byte, fieldKK_byte]
  case seReg x y => exact decode_seReg x y _
  case sneReg x y => exact decode_sneReg x y _
  case ldReg | orReg | andReg | xorReg | addReg | subReg | subnReg | shr | shl => exact decode_category8 _ _ _
  case skp | sknp => exact decode_categoryE _ _
  case addI | ldGlyph | ldBcd | storeRegs | loadRegs | ldKey | ldFromDT | ldDT | ldST => exact decode_categoryF _ _
  case drw => simp [encode, decode, fieldO_nibbles, fieldX_nibbles, fieldY_nibbles, fieldN_nibbles]

/-- Settles O1: the decoder is run on each of the words. -/
theorem sampleWordsDecode : Obligations.SampleWordsDecode := by
  unfold Obligations.SampleWordsDecode
  decide

/-! ## The canonical word (R51, R55) -/

theorem nibble_of_toNat {n : Nibble} {k : Nat} (h : n.toNat = k) : n = BitVec.ofNat 4 k := by
  rw [← h, BitVec.ofNat_toNat, BitVec.setWidth_eq]

/-- Only categories 5, 8 and 9 have ignored fields. -/
theorem canonicalWord_eq_self {w : Word} {k : Nat} (ho : (fieldO w).toNat = k) (hk : k ∉ [5, 8, 9]) :
    canonicalWord w = w := by
  have hne : ∀ c : Nibble, c.toNat ∈ [5, 8, 9] → fieldO w ≠ c := fun c hc h => hk (ho ▸ h ▸ hc)
  rw [canonicalWord, if_neg (not_or.mpr ⟨hne _ (by decide), hne _ (by decide)⟩),
    if_neg (fun h => hne _ (by decide) h.1)]

section
variable {w : Word} {k : Nat} (ho : (fieldO w).toNat = k)
include ho

/-- A word of a category without ignored fields is put together from its address. -/
theorem append_fieldNNN (hk : k ∉ [5, 8, 9]) : BitVec.ofNat 4 k ++ fieldNNN w = canonicalWord w := by
  rw [canonicalWord_eq_self ho hk, ← nibble_of_toNat ho, word_of_addr]

/-- A word of a category without ignored fields is put together from its register and low byte. -/
theorem append_fieldX_fieldKK (hk : k ∉ [5, 8, 9]) : BitVec.ofNat 4 k ++ fieldX w ++ fieldKK w = canonicalWord w := by
  rw [canonicalWord_eq_self ho hk, ← nibble_of_toNat ho, word_of_byte]

/-- A word of a category without ignored fields is put together from its nibbles. -/
theorem append_nibbles (hk : k ∉ [5, 8, 9]) :
    BitVec.ofNat 4 k ++ fieldX w ++ fieldY w ++ fieldN w = canonicalWord w := by
  rw [canonicalWord_eq_self ho hk, ← nibble_of_toNat ho, word_of_nibbles]

end

theorem maskFFF0_nibbles (o x y n : BitVec 4) : (o ++ x ++ y ++ n) &&& 0xFFF0#16 = o ++ x ++ y ++ 0x0#4 := by
  rw [show 0xFFF0#16 = 0xF#4 ++ 0xF#4 ++ 0xF#4 ++ 0x0#4 by decide, and_append, and_append, and_append]
  simp [and_ones_nibble]

theorem maskFF0F_nibbles (o x y n : BitVec 4) : (o ++ x ++ y ++ n) &&& 0xFF0F#16 = o ++ x ++ 0x0#4 ++ n := by
  rw [show 0xFF0F#16 = 0xF#4 ++ 0xF#4 ++ 0x0#4 ++ 0xF#4 by decide, and_append, and_append, and_append]
  simp [and_ones_nibble]

/-- Categories 5 and 9 ignore `n`. -/
theorem append_nibbles_zero {w : Word} {k : Nat} (ho : (fieldO w).toNat = k) (hk : k = 5 ∨ k = 9) :
    BitVec.ofNat 4 k ++ fieldX w ++ fieldY w ++ 0x0#4 = canonicalWord w := by
  have hcat : fieldO w = 0x5#4 ∨ fieldO w = 0x9#4 :=
    hk.imp (fun h => nibble_of_toNat (ho.trans h)) (fun h => nibble_of_toNat (ho.trans h))
  rw [canonicalWord, if_pos hcat, ← nibble_of_toNat ho, ← maskFFF0_nibbles _ _ _ (fieldN w), word_of_nibbles]

/-- Category 8 ignores `y` in the two shifts. -/
theorem append_arith {w : Word} (ho : fieldO w = 0x8#4) :
    0x8#4 ++ fieldX w ++ (if fieldN w = 0x6#4 ∨ fieldN w = 0xE#4 then 0x0#4 else fieldY w) ++ fieldN w =
      canonicalWord w := by
  have hw := word_of_nibbles w
  rw [ho] at hw
  by_cases hn : fieldN w = 0x6#4 ∨ fieldN w = 0xE#4
  · rw [if_pos hn, canonicalWord, if_neg (by simp [ho]), if_pos ⟨ho, hn⟩, ← maskFF0F_nibbles _ _ (fieldY w), hw]
  · rw [if_neg hn, canonicalWord, if_neg (by simp [ho]), if_neg (fun h => hn h.2), hw]

/-! ## What the secondary decoders answer -/

theorem encode_decodeSys (nnn : Addr12) :
    (decodeSys nnn).WellFormed ∧ encode (decodeSys nnn) = 0x0#4 ++ nnn := by
  unfold decodeSys
  split
  · next h => subst h; decide
  · next hcls =>
    split
    · next h => subst h; decide
    · next hret =>
      split
      · next h => subst h; decide
      · next hexit => exact ⟨by simp [Instr.WellFormed, Instr.wellFormed, sysExcept, hcls, hret, hexit], rfl⟩

theorem encode_decodeArith {x y : RegNum} {n : Nibble} {i : Instr} (h : decodeArith x y n = .ok i) :
    i.WellFormed ∧ encode i = 0x8#4 ++ x ++ (if n = 0x6#4 ∨ n = 0xE#4 then 0x0#4 else y) ++ n := by
  unfold decodeArith at h
  split at h <;> cases h
  all_goals
    next hn =>
    obtain rfl := nibble_of_toNat hn
    exact ⟨rfl, rfl⟩

theorem encode_decodeKeyTest {x : RegNum} {kk : Byte} {i : Instr} (h : decodeKeyTest x kk = .ok i) :
    i.WellFormed ∧ encode i = 0xE#4 ++ x ++ kk := by
  unfold decodeKeyTest at h
  repeat' split at h
  all_goals
    cases h
  all_goals
    exact ⟨rfl, by simp [*, encode]⟩

theorem encode_decodeMisc {x : RegNum} {kk : Byte} {i : Instr} (h : decodeMisc x kk = .ok i) :
    i.WellFormed ∧ encode i = 0xF#4 ++ x ++ kk := by
  unfold decodeMisc at h
  repeat' split at h
  all_goals
    cases h
  all_goals
    exact ⟨rfl, by simp [*, encode]⟩

/-- The undefined selectors of category 8 (R52). -/
theorem decodeArith_error_iff (x y : RegNum) (n : Nibble) :
    (∃ r, decodeArith x y n = .error r) ↔ n ∈ [0x8#4, 0x9#4, 0xA#4, 0xB#4, 0xC#4, 0xD#4, 0xF#4] := by
  have hn : n = BitVec.ofNat 4 n.toNat := nibble_of_toNat rfl
  have hlt := n.isLt
  generalize n.toNat = k at hn hlt
  subst hn
  interval_cases k <;> simp [decodeArith]

/-- The undefined selectors of category E (R52). -/
theorem decodeKeyTest_error_iff (x : RegNum) (kk : Byte) :
    (∃ r, decodeKeyTest x kk = .error r) ↔ kk ∉ [0x9E#8, 0xA1#8] := by
  unfold decodeKeyTest
  repeat' split
  all_goals simp_all

/-- The undefined selectors of category F (R52). -/
theorem decodeMisc_error_iff (x : RegNum) (kk : Byte) :
    (∃ r, decodeMisc x kk = .error r) ↔
      kk ∉ [0x07#8, 0x0A#8, 0x15#8, 0x18#8, 0x1E#8, 0x29#8, 0x33#8, 0x55#8, 0x65#8] := by
  unfold decodeMisc
  repeat' split
  all_goals simp_all

/-! ## The statements about every word -/

/-- The last arm of the decoder is category F. -/
theorem category_F {o : Nibble} (h : 0xE < o.toNat) : o.toNat = 0xF := by
  have := o.isLt
  omega

/-- Settles O3: per category, the word is put together again from the fields that were decoded. -/
theorem decodedInstructionEncodesBack : Obligations.DecodedInstructionEncodesBack := by
  intro w i h
  unfold decode at h
  split at h
  case h_1 ho =>
    cases h
    obtain ⟨hwf, henc⟩ := encode_decodeSys (fieldNNN w)
    exact ⟨hwf, henc.trans (append_fieldNNN ho (by decide))⟩
  case h_2 ho | h_3 ho | h_11 ho | h_12 ho =>
    cases h
    exact ⟨rfl, append_fieldNNN ho (by decide)⟩
  case h_4 ho | h_5 ho | h_7 ho | h_8 ho | h_13 ho =>
    cases h
    exact ⟨rfl, append_fieldX_fieldKK ho (by decide)⟩
  case h_6 ho | h_10 ho =>
    cases h
    exact ⟨rfl, append_nibbles_zero ho (by decide)⟩
  case h_9 ho =>
    obtain ⟨hwf, henc⟩ := encode_decodeArith h
    exact ⟨hwf, henc.trans (append_arith (nibble_of_toNat ho))⟩
  case h_14 ho =>
    cases h
    exact ⟨rfl, append_nibbles ho (by decide)⟩
  case h_15 ho =>
    obtain ⟨hwf, henc⟩ := encode_decodeKeyTest h
    exact ⟨hwf, henc.trans (append_fieldX_fieldKK ho (by decide))⟩
  case h_16 =>
    have ho : (fieldO w).toNat = 0xF := category_F (by grind)
    obtain ⟨hwf, henc⟩ := encode_decodeMisc h
    exact ⟨hwf, henc.trans (append_fieldX_fieldKK ho (by decide))⟩

/-- Settles O4: three categories have a secondary decoder that can fail, and the others answer an instruction. -/
theorem decodeErrorsAreExactlyThese : Obligations.DecodeErrorsAreExactlyThese := by
  intro w
  unfold decode
  split
  case h_9 ho => simp only [decodeArith_error_iff, nibble_of_toNat ho]; simp
  case h_15 ho => simp only [decodeKeyTest_error_iff, nibble_of_toNat ho]; simp
  case h_16 =>
    have ho : (fieldO w).toNat = 0xF := category_F (by grind)
    simp only [decodeMisc_error_iff, nibble_of_toNat ho]; simp
  all_goals
    next ho => simp [nibble_of_toNat ho]

/-- The fields that the decoder ignores are outside the row's mask. -/
theorem canonicalWord_and_rowMask {w : Word} {i : Instr} (h : decode w = .ok i) :
    canonicalWord w &&& i.rowMask = w &&& i.rowMask := by
  unfold canonicalWord
  split
  · next hcat =>
    have hmask : i.rowMask = 0xF000#16 := by
      rcases hcat with ho | ho <;> simp [decode, ho] at h <;> subst h <;> rfl
    rw [hmask, BitVec.and_assoc, show 0xFFF0#16 &&& 0xF000#16 = 0xF000#16 by decide]
  · split
    · next hshift =>
      obtain ⟨ho, hn⟩ := hshift
      have hmask : i.rowMask = 0xF00F#16 := by
        rcases hn with hn | hn <;> simp [decode, ho, decodeArith, hn] at h <;> subst h <;> rfl
      rw [hmask, BitVec.and_assoc, show 0xFF0F#16 &&& 0xF00F#16 = 0xF00F#16 by decide]
    · rfl

/-- The statements made per instruction, together: the canonical word of every instruction matches its row (R53). -/
theorem rowMatch_statement (i : Instr) : Laws.RowMatch.Statement i :=
  match i with
  | .cls => Laws.RowMatch.cls
  | .ret => Laws.RowMatch.ret
  | .call _ => Laws.RowMatch.call _
  | .jp _ => Laws.RowMatch.jp _
  | .jpV0 _ => Laws.RowMatch.jpV0 _
  | .sys _ => Laws.RowMatch.sys _
  | .exit => Laws.RowMatch.exit
  | .seImm _ _ => Laws.RowMatch.seImm _ _
  | .sneImm _ _ => Laws.RowMatch.sneImm _ _
  | .seReg _ _ => Laws.RowMatch.seReg _ _
  | .sneReg _ _ => Laws.RowMatch.sneReg _ _
  | .ldImm _ _ => Laws.RowMatch.ldImm _ _
  | .ldReg _ _ => Laws.RowMatch.ldReg _ _
  | .addImm _ _ => Laws.RowMatch.addImm _ _
  | .orReg _ _ => Laws.RowMatch.orReg _ _
  | .andReg _ _ => Laws.RowMatch.andReg _ _
  | .xorReg _ _ => Laws.RowMatch.xorReg _ _
  | .addReg _ _ => Laws.RowMatch.addReg _ _
  | .subReg _ _ => Laws.RowMatch.subReg _ _
  | .subnReg _ _ => Laws.RowMatch.subnReg _ _
  | .shr _ => Laws.RowMatch.shr _
  | .shl _ => Laws.RowMatch.shl _
  | .ldI _ => Laws.RowMatch.ldI _
  | .addI _ => Laws.RowMatch.addI _
  | .ldGlyph _ => Laws.RowMatch.ldGlyph _
  | .ldBcd _ => Laws.RowMatch.ldBcd _
  | .storeRegs _ => Laws.RowMatch.storeRegs _
  | .loadRegs _ => Laws.RowMatch.loadRegs _
  | .rnd _ _ => Laws.RowMatch.rnd _ _
  | .skp _ => Laws.RowMatch.skp _
  | .sknp _ => Laws.RowMatch.sknp _
  | .ldKey _ => Laws.RowMatch.ldKey _
  | .ldFromDT _ => Laws.RowMatch.ldFromDT _
  | .ldDT _ => Laws.RowMatch.ldDT _
  | .ldST _ => Laws.RowMatch.ldST _
  | .drw _ _ _ => Laws.RowMatch.drw _ _ _

/-- Settles O5: the row's mask sees no ignored field, so the word matches as its canonical word does; the words of CLS,
RET and EXIT decode to these and not to SYS. -/
theorem decodedWordMatchesItsRow : Obligations.DecodedWordMatchesItsRow := by
  intro w i h
  have hword : encode i = canonicalWord w := (decodedInstructionEncodesBack w i h).2
  constructor
  · rw [← canonicalWord_and_rowMask h, ← hword]
    exact rowMatch_statement i
  · rintro ⟨nnn, rfl⟩
    obtain ⟨hcls, hret, hexit, -⟩ := sampleWordsDecode
    refine ⟨?_, ?_, ?_⟩ <;> rintro rfl
    · exact nomatch hcls.symm.trans h
    · exact nomatch hret.symm.trans h
    · exact nomatch hexit.symm.trans h

end Sys2Proof
end

section
/-! PROOFS. Everything an instruction can do, said once: its update of the state, the state it answers, and the one case
in which it answers none; and the statements about errors and about the next PC (R62, R113, R114). -/

namespace Sys2Proof.Machine

/-! ## The update and the successor of an instruction -/

/-- What an instruction that completes does to the state, besides PC, `run` and the status: the written columns of R25,
with their values. `exec_eq_successor` ties it to the meanings. -/
def effect (i : Instr) (s : State) : State :=
  match i with
  | .cls => s.setScreen (Screen.clear s.fb.width s.fb.height)
  | .ret => s.pop
  | .call _ => if h : s.sp.toNat < 16 then s.push (s.pc + 2#16) h else s
  | .sys _ | .exit | .jp _ | .jpV0 _ => s
  | .seImm _ _ | .sneImm _ _ | .seReg _ _ | .sneReg _ _ | .skp _ | .sknp _ => s
  | .ldImm x kk => s.setReg x kk
  | .ldReg x y => s.setReg x (s.reg y)
  | .addImm x kk => s.setReg x (s.reg x + kk)
  | .orReg x y => s.setReg x (s.reg x ||| s.reg y)
  | .andReg x y => s.setReg x (s.reg x &&& s.reg y)
  | .xorReg x y => s.setReg x (s.reg x ^^^ s.reg y)
  | .addReg x y => s.setRegFlag x (s.reg x + s.reg y) (carryFlag (s.reg x) (s.reg y))
  | .subReg x y => s.setRegFlag x (s.reg x - s.reg y) (noBorrowFlag (s.reg x) (s.reg y))
  | .subnReg x y => s.setRegFlag x (s.reg y - s.reg x) (noBorrowFlag (s.reg y) (s.reg x))
  | .shr x => s.setRegFlag x (s.reg x >>> 1) (lsbFlag (s.reg x))
  | .shl x => s.setRegFlag x (s.reg x <<< 1) (msbFlag (s.reg x))
  | .ldI nnn => s.setI (zextAddr nnn)
  | .addI x => s.setI (s.i + zextByte (s.reg x))
  | .ldGlyph x => s.setI (glyphAddr (s.reg x))
  | .ldBcd x => s.store s.i.toNat (bcdDigits (s.reg x))
  | .storeRegs x => s.store s.i.toNat (s.lowRegs x)
  | .loadRegs x => s.loadLowRegs x s.i.toNat
  | .rnd x kk => s.takeRandom.setReg x (s.randomByte &&& kk)
  | .ldKey x => s.receiveKey x
  | .ldFromDT x => s.setReg x s.dt
  | .ldDT x => s.setDT (s.reg x)
  | .ldST x => s.setST (s.reg x)
  | .drw x y n => (s.setScreen (s.blit x y n).screen).setReg vF (flagByte (s.blit x y n).collided)

/-- The state after an instruction that raises no error. -/
def completed (i : Instr) (s : State) : State :=
  match i with
  | .exit => s.haltExit
  | i => (effect i s).finish (nextPc i s)

/-- The state after an instruction: precise where its error condition holds, completed where it does not. -/
def successor (i : Instr) (s : State) : State := (errorOf i s).elim (completed i s) (erred s)

/-- The instruction would use a stack entry that does not exist (log entry 8). -/
def SlotAbsent (i : Instr) (s : State) : Prop := (i = .ret ∨ ∃ nnn, i = .call nnn) ∧ 16 < s.sp.toNat

theorem completed_of_ne_exit {i : Instr} (h : i ≠ .exit) (s : State) :
    completed i s = (effect i s).finish (nextPc i s) := by
  unfold completed
  split
  · exact absurd rfl h
  · rfl

theorem successor_of_error {i : Instr} {s : State} {e : CoreError} (h : errorOf i s = some e) :
    successor i s = erred s e := by
  rw [successor, h, Option.elim_some]

theorem successor_of_no_error {i : Instr} {s : State} (h : errorOf i s = none) : successor i s = completed i s := by
  rw [successor, h, Option.elim_none]

theorem not_slotAbsent {i : Instr} {s : State} (h : s.sp.toNat ≤ 16) : ¬ SlotAbsent i s := fun hs => by
  have := hs.2
  omega

/-! ## SP and the stack -/

theorem effect_call {nnn : Addr12} {s : State} (h : s.sp.toNat < 16) :
    effect (.call nnn) s = s.push (s.pc + 2#16) h := dif_pos h

theorem effect_call_full {nnn : Addr12} {s : State} (h : ¬ s.sp.toNat < 16) : effect (.call nnn) s = s := dif_neg h

theorem push_sp_toNat (s : State) (w : Word) (h : s.sp.toNat < 16) : (s.push w h).sp.toNat = s.sp.toNat + 1 := by
  rw [State.push_sp]
  bv_omega

theorem pop_sp_toNat {s : State} (h : s.sp.toNat ≠ 0) : s.pop.sp.toNat = s.sp.toNat - 1 := by
  rw [State.pop_sp]
  bv_omega

/-! ## The successor of each kind of instruction -/

/-- An instruction that checks its range (R36), the error condition `p` spelled as in `errorOf`. -/
theorem exec_of_guardRange {i : Instr} {s : State} {base len : Nat} {p : Prop} [Decidable p]
    (hexec : exec i s = s.guardRange base len (.next (completed i s)))
    (herr : errorOf i s = if p then some (.memoryBounds (max base 0x1000)) else none)
    (hp : p ↔ ¬ base + len - 1 ≤ 0xFFF) : exec i s = .next (successor i s) := by
  by_cases h : base + len - 1 ≤ 0xFFF
  · rw [if_neg (fun hp' => hp.mp hp' h)] at herr
    rw [hexec, guardRange_in h, successor_of_no_error herr]
  · rw [if_pos (hp.mpr h)] at herr
    rw [hexec, guardRange_out h, successor_of_error herr]

theorem errorOf_ldBcd (x : RegNum) (s : State) : errorOf (.ldBcd x) s =
    if s.i.toNat > 0xFFD then some (.memoryBounds (max s.i.toNat 0x1000)) else none := rfl

theorem errorOf_storeRegs (x : RegNum) (s : State) : errorOf (.storeRegs x) s =
    if s.i.toNat + x.toNat > 0xFFF then some (.memoryBounds (max s.i.toNat 0x1000)) else none := rfl

theorem errorOf_loadRegs (x : RegNum) (s : State) : errorOf (.loadRegs x) s =
    if s.i.toNat + x.toNat > 0xFFF then some (.memoryBounds (max s.i.toNat 0x1000)) else none := rfl

theorem errorOf_drw (x y : RegNum) (n : Nibble) (s : State) : errorOf (.drw x y n) s =
    if n.toNat ≥ 1 ∧ s.i.toNat + n.toNat - 1 > 0xFFF then some (.memoryBounds (max s.i.toNat 0x1000)) else none := rfl

theorem errorOf_ret (s : State) : errorOf .ret s = if s.sp.toNat = 0 then some .stackUnderflow else none := rfl

/-- RET without an error has a live frame. -/
theorem sp_ne_zero_of_ret {s : State} (h : errorOf .ret s = none) : s.sp.toNat ≠ 0 := fun h0 =>
  nomatch ((errorOf_ret s).trans (if_pos h0)).symm.trans h

theorem errorOf_call (nnn : Addr12) (s : State) :
    errorOf (.call nnn) s = if s.sp.toNat = 16 then some .stackOverflow else none := rfl

theorem exec_ldBcd_eq_successor (x : RegNum) (s : State) :
    exec (.ldBcd x) s = .next (successor (.ldBcd x) s) :=
  exec_of_guardRange (len := 3) rfl (errorOf_ldBcd x s) (by omega)

theorem exec_storeRegs_eq_successor (x : RegNum) (s : State) :
    exec (.storeRegs x) s = .next (successor (.storeRegs x) s) :=
  exec_of_guardRange (len := x.toNat + 1) rfl (errorOf_storeRegs x s) (by omega)

theorem exec_loadRegs_eq_successor (x : RegNum) (s : State) :
    exec (.loadRegs x) s = .next (successor (.loadRegs x) s) :=
  exec_of_guardRange (len := x.toNat + 1) rfl (errorOf_loadRegs x s) (by omega)

theorem nibble_ne_zero_iff (n : Nibble) : n ≠ 0#4 ↔ n.toNat ≥ 1 := by
  rw [ne_eq, ← BitVec.toNat_inj]
  exact Nat.pos_iff_ne_zero.symm

/-- DRW checks its range only where it has a sprite row (R109). -/
theorem exec_drw_eq_successor (x y : RegNum) (n : Nibble) (s : State) :
    exec (.drw x y n) s = .next (successor (.drw x y n) s) := by
  have hn := nibble_ne_zero_iff n
  by_cases h : n.toNat ≥ 1 ∧ s.i.toNat + n.toNat - 1 > 0xFFF
  · rw [successor_of_error ((errorOf_drw x y n s).trans (if_pos h))]
    exact if_pos ⟨hn.mpr h.1, Nat.not_le.mpr h.2⟩
  · rw [successor_of_no_error ((errorOf_drw x y n s).trans (if_neg h))]
    exact if_neg fun hd => h ⟨hn.mp hd.1, Nat.not_le.mp hd.2⟩

theorem nextPc_ret (s : State) : nextPc .ret s = s.stack[s.sp.toNat - 1]?.getD 0 := rfl

theorem nextPc_ldKey (x : RegNum) (s : State) :
    nextPc (.ldKey x) s = if AnyPressed s then s.pc + 2#16 else s.pc := rfl

/-- RET pops a live frame or raises StackUnderflow, unless its entry does not exist (R70). -/
theorem exec_ret_eq_successor {s : State} (h : s.sp.toNat ≤ 16) : exec .ret s = .next (successor .ret s) := by
  by_cases h0 : s.sp.toNat = 0
  · rw [successor_of_error ((errorOf_ret s).trans (if_pos h0))]
    exact popReturn_empty h0
  · have hlt : s.sp.toNat - 1 < 16 := by omega
    have hpc : nextPc .ret s = s.stack[s.sp.toNat - 1] := by rw [nextPc_ret, Vector.getElem?_eq_getElem hlt]; rfl
    rw [successor_of_no_error ((errorOf_ret s).trans (if_neg h0)), completed_of_ne_exit (by decide), hpc]
    exact popReturn_live h0 hlt

/-- CALL pushes where there is room or raises StackOverflow, unless its entry does not exist (R71). -/
theorem exec_call_eq_successor (nnn : Addr12) {s : State} (h : s.sp.toNat ≤ 16) :
    exec (.call nnn) s = .next (successor (.call nnn) s) := by
  by_cases h16 : s.sp.toNat = 16
  · rw [successor_of_error ((errorOf_call nnn s).trans (if_pos h16))]
    exact pushCall_full _ _ h16
  · have hlt : s.sp.toNat < 16 := by omega
    rw [successor_of_no_error ((errorOf_call nnn s).trans (if_neg h16)), completed_of_ne_exit (by simp),
      effect_call hlt]
    exact pushCall_room _ _ hlt

/-- A skip on a Boolean is the skip on the proposition it decides (R62). -/
theorem skipIf_eq_skipTarget (s : State) (c : Bool) (p : Prop) [Decidable p] (h : c = true ↔ p) :
    s.skipIf c = .next (s.finish (skipTarget s p)) := by
  rw [skipIf_eq, skipTarget, if_congr h rfl rfl]

theorem keyPressed_keyIndex (s : State) (x : RegNum) :
    keyPressed s.keys (keyIndex (s.reg x)) = true ↔ Pressed s ((s.reg x).toNat % 16) := by
  have h : (s.reg x).toNat % 16 < 16 := Nat.mod_lt _ (by decide)
  rw [keyIndex_eq, keyPressed_eq _ _ h]
  exact ⟨fun hk => ⟨h, hk⟩, fun ⟨_, hk⟩ => hk⟩

/-- Some key is received exactly if some key is pressed (R104). -/
theorem lowestKey_isSome (s : State) : (lowestKey s.keys).isSome = true ↔ AnyPressed s := by
  rw [lowestKey, List.find?_isSome]
  constructor
  · rintro ⟨k, hk, hp⟩
    have h : k < 16 := List.mem_range.mp hk
    rw [keyPressed_eq _ _ h] at hp
    exact ⟨k, h, h, hp⟩
  · rintro ⟨k, h, _, hp⟩
    exact ⟨k, List.mem_range.mpr h, (keyPressed_eq _ _ h).trans hp⟩

theorem exec_ldKey_eq_successor (x : RegNum) (s : State) : exec (.ldKey x) s = .next (successor (.ldKey x) s) := by
  have hpc : nextPc (.ldKey x) s = if (lowestKey s.keys).isSome then s.pc + 2#16 else s.pc := by
    rw [nextPc_ldKey, if_congr (lowestKey_isSome s) rfl rfl]
  rw [successor_of_no_error rfl, completed_of_ne_exit (by simp), hpc]
  rfl

/-- The 16-bit sum of the operands is the one of the update table. -/
theorem nextPc_jpV0 (nnn : Addr12) (s : State) :
    nextPc (.jpV0 nnn) s = zextAddr nnn + zextByte (s.reg 0#4) := by
  apply BitVec.eq_of_toNat_eq
  rw [BitVec.toNat_add, zextAddr_toNat, zextByte_toNat]
  rfl

/-- The sum is at most 0xFFF + 0xFF, so it does not wrap (R73). -/
theorem nextPc_jpV0_toNat (nnn : Addr12) (s : State) :
    (nextPc (.jpV0 nnn) s).toNat = nnn.toNat + (s.reg 0#4).toNat := by
  rw [nextPc_jpV0, BitVec.toNat_add, zextAddr_toNat, zextByte_toNat]
  omega

theorem exec_jpV0_eq_successor (nnn : Addr12) (s : State) : exec (.jpV0 nnn) s = .next (successor (.jpV0 nnn) s) := by
  rw [successor_of_no_error rfl, completed_of_ne_exit (by simp), nextPc_jpV0]
  rfl

/-! ## The rule for every instruction -/

/-- An instruction answers its successor, unless it would use a stack entry that does not exist. -/
theorem exec_eq_successor {i : Instr} {s : State} (h : ¬ SlotAbsent i s) : exec i s = .next (successor i s) := by
  cases i
  case ret => exact exec_ret_eq_successor (Nat.not_lt.mp fun hsp => h ⟨.inl rfl, hsp⟩)
  case call nnn => exact exec_call_eq_successor nnn (Nat.not_lt.mp fun hsp => h ⟨.inr ⟨nnn, rfl⟩, hsp⟩)
  case ldBcd x => exact exec_ldBcd_eq_successor x s
  case storeRegs x => exact exec_storeRegs_eq_successor x s
  case loadRegs x => exact exec_loadRegs_eq_successor x s
  case drw x y n => exact exec_drw_eq_successor x y n s
  case ldKey x => exact exec_ldKey_eq_successor x s
  case jpV0 nnn => exact exec_jpV0_eq_successor nnn s
  case seImm x kk => exact skipIf_eq_skipTarget s _ _ beq_iff_eq
  case sneImm x kk => exact skipIf_eq_skipTarget s _ _ bne_iff_ne
  case seReg x y => exact skipIf_eq_skipTarget s _ _ beq_iff_eq
  case sneReg x y => exact skipIf_eq_skipTarget s _ _ bne_iff_ne
  case skp x => exact skipIf_eq_skipTarget s _ _ (keyPressed_keyIndex s x)
  case sknp x =>
    exact skipIf_eq_skipTarget s _ _ (by rw [Bool.not_eq_true', ← Bool.not_eq_true, keyPressed_keyIndex])
  all_goals rfl

/-- The one case without a next state (log entry 8). -/
theorem exec_slotAbsent {i : Instr} {s : State} (h : SlotAbsent i s) :
    exec i s = .fault (.stackSlotAbsent s.sp.toNat) := by
  obtain ⟨rfl | ⟨nnn, rfl⟩, hsp⟩ := h
  · have h0 : ¬ s.sp.toNat = 0 := by omega
    have h16 : ¬ s.sp.toNat - 1 < 16 := by omega
    exact (if_neg h0).trans (dif_neg h16)
  · have h16 : ¬ s.sp.toNat < 16 := by omega
    have hne : ¬ s.sp.toNat = 16 := by omega
    exact (dif_neg h16).trans (if_neg hne)

/-- Everything an instruction can answer with a next state. -/
theorem exec_next {i : Instr} {s t : State} (h : exec i s = .next t) : ¬ SlotAbsent i s ∧ t = successor i s := by
  by_cases hs : SlotAbsent i s
  · rw [exec_slotAbsent hs] at h
    exact nomatch h
  · rw [exec_eq_successor hs] at h
    exact ⟨hs, (Host.Outcome.next.inj h).symm⟩

/-! ## Errors and the next PC -/

theorem completed_status (i : Instr) (s : State) :
    (completed i s).status = some (if i = .exit then .exited else .ok) := by
  by_cases h : i = .exit
  · subst h; rfl
  · rw [completed_of_ne_exit h, if_neg h, State.finish_status]

/-- A key that is received is written to `Vx` (R104). -/
theorem receiveKey_some {s : State} {k : Nat} (h : lowestKey s.keys = some k) (x : RegNum) :
    s.receiveKey x = s.setReg x (BitVec.ofNat 8 k) := by
  rw [State.receiveKey, h]

theorem receiveKey_none {s : State} (h : lowestKey s.keys = none) (x : RegNum) : s.receiveKey x = s := by
  rw [State.receiveKey, h]

/-- LD Vx, K writes no field but the registers. -/
theorem receiveKey_eq (s : State) (x : RegNum) : ∃ v, s.receiveKey x = { s with v := v } := by
  cases h : lowestKey s.keys with
  | some k => exact ⟨_, receiveKey_some h x⟩
  | none => exact ⟨s.v, receiveKey_none h x⟩

/-- No update touches the run state. -/
theorem effect_run (i : Instr) (s : State) : (effect i s).run = s.run := by
  cases i
  case call nnn =>
    by_cases h : s.sp.toNat < 16
    · rw [effect_call h, State.push_run]
    · rw [effect_call_full h]
  case ldKey x =>
    obtain ⟨v, hv⟩ := receiveKey_eq s x
    rw [effect, hv]
  all_goals rfl

theorem completed_run (i : Instr) (s : State) :
    (completed i s).run = if i = .exit then .halted else s.run := by
  by_cases h : i = .exit
  · subst h; rfl
  · rw [completed_of_ne_exit h, if_neg h, State.finish_run, effect_run]

theorem completed_pc (i : Instr) (s : State) : (completed i s).pc = nextPc i s := by
  by_cases h : i = .exit
  · subst h; rfl
  · rw [completed_of_ne_exit h, State.finish_pc]

/-- Settles O45: with SP in range the instruction answers its successor, which is the erred state or the completed
one. -/
theorem instructionCompletesOrErrsPrecisely : Obligations.InstructionCompletesOrErrsPrecisely := by
  intro i s hsp
  have hexec : exec i s = .next (successor i s) := exec_eq_successor (not_slotAbsent hsp)
  constructor
  · intro e he
    rw [hexec, successor_of_error he]
  · intro he
    rw [successor_of_no_error he] at hexec
    exact ⟨completed i s, hexec, completed_status i s, completed_run i s⟩

/-- Settles O47: an error keeps PC, and an instruction that completes has gone to `nextPc`. -/
theorem pcFollowsTheUpdateTable : Obligations.PcFollowsTheUpdateTable := by
  intro i s t h
  obtain ⟨-, rfl⟩ := exec_next h
  constructor
  · intro he
    rw [successor_of_no_error he, completed_pc]
  · intro hne
    obtain ⟨e, he⟩ := Option.ne_none_iff_exists'.mp hne
    rw [successor_of_error he]
    rfl

end Sys2Proof.Machine
end

section
/-! PROOFS. Every update stays in its footprint, and the statement that every instruction writes inside the access
matrix (10_state R25). -/

namespace Sys2Proof.Machine

/-! ## The frame of each update -/

section
variable {f : Footprint} {s t : State} (h : FramedBy f s t)
include h

/-- A footprint with `x` and VF allows any result and flag. -/
theorem framedBy_setRegFlag {x : RegNum} {b c : Byte} (hx : x ∈ f.regs) (hf : vF ∈ f.regs) :
    FramedBy f s (t.setRegFlag x b c) :=
  framedBy_setReg (framedBy_setReg h hx) hf

theorem framedBy_setDT {b : Byte} (hf : f.delay = true) : FramedBy f s (t.setDT b) := by
  obtain ⟨regs, index, entries, sp, -, rest⟩ := h
  exact ⟨regs, index, entries, sp, by simp [hf], rest⟩

theorem framedBy_setST {b : Byte} (hf : f.sound = true) : FramedBy f s (t.setST b) := by
  obtain ⟨regs, index, entries, sp, delay, -, rest⟩ := h
  exact ⟨regs, index, entries, sp, delay, by simp [hf], rest⟩

theorem framedBy_takeRandom (hf : f.random = true) : FramedBy f s t.takeRandom := by
  obtain ⟨regs, index, entries, sp, delay, sound, screen, width, height, memory, -, rest⟩ := h
  exact ⟨regs, index, entries, sp, delay, sound, screen, width, height, memory, by simp [hf], rest⟩

theorem framedBy_pop (hf : f.sp = true) : FramedBy f s t.pop := by
  obtain ⟨regs, index, entries, -, rest⟩ := h
  exact ⟨regs, index, entries, by simp [hf], rest⟩

/-- A push writes SP and the one entry at SP. -/
theorem framedBy_push {w : Word} (hlt : t.sp.toNat < 16) (hf : f.sp = true) (he : t.sp.toNat ∈ f.entries) :
    FramedBy f s (t.push w hlt) := by
  obtain ⟨regs, index, entries, -, rest⟩ := h
  refine ⟨regs, index, fun k hk hkf => ?_, by simp [hf], rest⟩
  have hne : t.sp.toNat ≠ k := fun e => hkf (e ▸ he)
  rw [State.push_stack, Vector.getElem_set_ne _ _ hne, entries k hk hkf]

/-- A block store writes the addresses of its block. -/
theorem framedBy_store {a : Nat} {bs : List Byte} (hf : ∀ c ∈ addrRange a bs.length, c ∈ f.memory) :
    FramedBy f s (t.store a bs) := by
  obtain ⟨regs, index, entries, sp, delay, sound, screen, width, height, memory, rest⟩ := h
  refine ⟨regs, index, entries, sp, delay, sound, screen, width, height, fun c hc => ?_, rest⟩
  have hout : c < a ∨ a + bs.length ≤ c := by
    by_contra hin
    have hk : c - a < bs.length := by omega
    exact hc (hf c (List.mem_map.mpr ⟨c - a, List.mem_range.mpr hk, by omega⟩))
  rw [State.store_mem, read_writeBlock_outside _ _ _ _ hout, memory c hc]

/-- A block load writes V0..Vx. -/
theorem framedBy_loadLowRegs {x : RegNum} {base : Nat} (hf : ∀ r : RegNum, r.toNat ≤ x.toNat → r ∈ f.regs) :
    FramedBy f s (t.loadLowRegs x base) := by
  obtain ⟨regs, rest⟩ := h
  refine ⟨fun r hr => ?_, rest⟩
  rw [reg_loadLowRegs, if_neg (fun hle => hr (hf r hle)), regs r hr]

theorem framedBy_receiveKey {x : RegNum} (hx : x ∈ f.regs) : FramedBy f s (t.receiveKey x) := by
  cases hk : lowestKey t.keys with
  | some k => rw [receiveKey_some hk]; exact framedBy_setReg h hx
  | none => rw [receiveKey_none hk]; exact h

end

/-! ## The frame of each instruction -/

/-- V0..Vx, as the footprint of a block load lists them. -/
theorem mem_lowRegNums {x r : RegNum} (h : r.toNat ≤ x.toNat) :
    r ∈ (List.range (x.toNat + 1)).map (BitVec.ofNat 4) :=
  List.mem_map.mpr ⟨r.toNat, List.mem_range.mpr (by omega), BitVec.eq_of_toNat_eq (by simp)⟩

/-- Every update stays in the write columns of its instruction. -/
theorem framedBy_effect (i : Instr) (s : State) : FramedBy (footprint i s) s (effect i s) := by
  have hrefl : FramedBy (footprint i s) s s := framedBy_refl _ s
  cases i
  case cls => exact framedBy_setScreen hrefl rfl rfl rfl
  case ret => exact framedBy_pop hrefl rfl
  case call =>
    by_cases h : s.sp.toNat < 16
    · rw [effect_call h]
      exact framedBy_push hrefl h rfl (List.mem_singleton_self _)
    · rw [effect_call_full h]
      exact hrefl
  case sys | exit | jp | jpV0 => exact hrefl
  case seImm | sneImm | seReg | sneReg | skp | sknp => exact hrefl
  case ldImm | ldReg | addImm | orReg | andReg | xorReg | ldFromDT =>
    exact framedBy_setReg hrefl (List.mem_singleton_self _)
  case addReg | subReg | subnReg | shr | shl =>
    exact framedBy_setRegFlag hrefl (List.mem_cons_self ..) (List.mem_cons_of_mem _ (List.mem_singleton_self _))
  case ldI | addI | ldGlyph => exact framedBy_setI hrefl rfl
  case ldBcd => exact framedBy_store hrefl fun _ hc => hc
  case storeRegs x => exact framedBy_store hrefl (by rw [lowRegs_length]; exact fun _ hc => hc)
  case loadRegs => exact framedBy_loadLowRegs hrefl fun _ hr => mem_lowRegNums hr
  case rnd => exact framedBy_setReg (framedBy_takeRandom hrefl rfl) (List.mem_singleton_self _)
  case ldKey => exact framedBy_receiveKey hrefl (List.mem_singleton_self _)
  case ldDT => exact framedBy_setDT hrefl rfl
  case ldST => exact framedBy_setST hrefl rfl
  case drw x y n =>
    exact framedBy_setReg (framedBy_setScreen hrefl rfl (blit_width s x y n) (blit_height s x y n))
      (List.mem_singleton_self _)

/-- Settles O46: the successor is the update, with PC and status written, or `s` halted; no frame speaks of PC, `run` or
the status. -/
theorem writesStayInTheAccessMatrix : Obligations.WritesStayInTheAccessMatrix := by
  intro i s t h
  obtain ⟨-, rfl⟩ := exec_next h
  cases he : errorOf i s with
  | some e =>
    rw [successor_of_error he]
    exact framedBy_refl _ s
  | none =>
    rw [successor_of_no_error he]
    by_cases hexit : i = .exit
    · subst hexit
      exact framedBy_refl _ s
    · rw [completed_of_ne_exit hexit]
      exact framedBy_finish (framedBy_effect i s) _

end Sys2Proof.Machine
end

section
/-! PROOFS. The invariant of 10_state R28: every update, every step and every command of the host keeps it, and from a
state that meets it a step answers a next state. -/

namespace Sys2Proof.Machine

/-- A skip from a fetched instruction goes at most to 0x1002. -/
theorem skipTarget_le {s : State} (hpc : s.pc.toNat ≤ 0xFFE) (c : Prop) [Decidable c] :
    (skipTarget s c).toNat ≤ 0x10FE := by
  unfold skipTarget
  split <;> bv_omega

/-! ## The updates that the invariant speaks of -/

section
variable {s : State} (hs : s.Inv)
include hs

/-- A new PC of at most 0x10FE keeps the invariant. -/
theorem inv_finish {w : Word} (hw : w.toNat ≤ 0x10FE) : (s.finish w).Inv := by
  obtain ⟨hi, hsp, -, rest⟩ := hs
  exact ⟨hi, hsp, hw, rest⟩

/-- Every write of I is masked to 12 bits (R13). -/
theorem inv_setI (w : Word) : (s.setI w).Inv := by
  obtain ⟨-, rest⟩ := hs
  refine ⟨?_, rest⟩
  rw [State.setI_i, maskI_toNat]
  omega

/-- A pop of a live frame lowers SP. -/
theorem inv_pop (h0 : s.sp.toNat ≠ 0) : s.pop.Inv := by
  obtain ⟨hi, hsp, rest⟩ := hs
  refine ⟨hi, ?_, rest⟩
  rw [pop_sp_toNat h0]
  omega

/-- A push below the limit, of an address that a fetched CALL can push, keeps SP and the entries in range. -/
theorem inv_push {w : Word} (hlt : s.sp.toNat < 16) (hw : w.toNat ≤ 0x1000) : (s.push w hlt).Inv := by
  obtain ⟨hi, -, hpc, hstack, rest⟩ := hs
  refine ⟨hi, ?_, hpc, fun v hv => ?_, rest⟩
  · rw [push_sp_toNat]
    omega
  · rw [State.push_stack, Vector.toList_set] at hv
    rcases List.mem_or_eq_of_mem_set hv with hv | rfl
    · exact hstack v hv
    · exact hw

/-- A block store inside memory keeps the canonical form. -/
theorem inv_store {a : Nat} {bs : List Byte} (hb : a + bs.length ≤ 4096) : (s.store a bs).Inv := by
  obtain ⟨hi, hsp, hpc, hstack, hmem, rest⟩ := hs
  exact ⟨hi, hsp, hpc, hstack, wf_writeBlock hmem a bs hb, rest⟩

/-- A framebuffer of the same size keeps the invariant. -/
theorem inv_setScreen {g : Screen} (hw : g.width = s.fb.width) (hh : g.height = s.fb.height) :
    (s.setScreen g).Inv := by
  obtain ⟨hi, hsp, hpc, hstack, hmem, hd, ht, hfw, hfh⟩ := hs
  exact ⟨hi, hsp, hpc, hstack, hmem, hd, ht, hw ▸ hfw, hh ▸ hfh⟩

theorem inv_receiveKey (x : RegNum) : (s.receiveKey x).Inv := by
  obtain ⟨v, hv⟩ := receiveKey_eq s x
  rw [hv]
  exact hs

/-! ## Instructions -/

/-- The update of an instruction that was fetched and raises no error keeps the invariant. -/
theorem inv_effect {i : Instr} (hpc : s.pc.toNat ≤ 0xFFE) (he : errorOf i s = none) : (effect i s).Inv := by
  cases i
  case cls => exact inv_setScreen hs rfl rfl
  case ret => exact inv_pop hs (sp_ne_zero_of_ret he)
  case call =>
    by_cases h : s.sp.toNat < 16
    · rw [effect_call h]
      exact inv_push hs h (by bv_omega)
    · rw [effect_call_full h]
      exact hs
  case ldI | addI | ldGlyph => exact inv_setI hs _
  case ldBcd =>
    rw [errorOf_ldBcd] at he
    refine inv_store hs ?_
    simp [bcdDigits] at he ⊢
    omega
  case storeRegs x =>
    rw [errorOf_storeRegs] at he
    refine inv_store hs ?_
    simp [lowRegs_length] at he ⊢
    omega
  case ldKey x => exact inv_receiveKey hs x
  case drw x y n => exact inv_setScreen hs (blit_width s x y n) (blit_height s x y n)
  all_goals exact hs

/-- The greatest next PC is that of JP V0, 0xFFF + 0xFF (R28, R73). -/
theorem nextPc_le (hpc : s.pc.toNat ≤ 0xFFE) (i : Instr) : (nextPc i s).toNat ≤ 0x10FE := by
  cases i
  case seImm | sneImm | seReg | sneReg | skp | sknp => exact skipTarget_le hpc _
  case jp nnn | call nnn =>
    refine (zextAddr_toNat nnn).trans_le ?_
    omega
  case jpV0 nnn =>
    rw [nextPc_jpV0_toNat]
    omega
  case ret =>
    obtain ⟨-, -, -, hstack, -⟩ := hs
    rw [nextPc_ret]
    cases hk : s.stack[s.sp.toNat - 1]? with
    | none => decide
    | some w =>
      have hw : w ∈ s.stack.toList := by
        obtain ⟨hlt, rfl⟩ := Vector.getElem?_eq_some_iff.mp hk
        exact Vector.mem_toList_iff.mpr (Vector.getElem_mem hlt)
      exact (hstack w hw).trans (by decide)
  case exit => exact hpc.trans (by decide)
  case ldKey =>
    rw [nextPc_ldKey]
    split <;> bv_omega
  all_goals
    show (s.pc + 2#16).toNat ≤ 0x10FE
    bv_omega

/-- An instruction that was fetched keeps the invariant, whether it completes or errs. -/
theorem inv_successor (hpc : s.pc.toNat ≤ 0xFFE) (i : Instr) : (successor i s).Inv := by
  cases he : errorOf i s with
  | some e =>
    rw [successor_of_error he]
    exact hs
  | none =>
    rw [successor_of_no_error he]
    by_cases hexit : i = .exit
    · subst hexit
      exact hs
    · rw [completed_of_ne_exit hexit]
      exact inv_finish (inv_effect hs hpc he) (nextPc_le hs hpc i)

/-! ## Steps -/

/-- A step from a state that meets the invariant answers a next state that meets it. -/
theorem exists_step : ∃ t, step s = .next t ∧ t.Inv := by
  have hbegin : s.beginStep.Inv := hs  -- a snapshot and timer phase touch no field of the invariant
  obtain ⟨-, hstep⟩ | ⟨-, -, hstep⟩ | ⟨-, -, r, -, hstep⟩ | ⟨-, hpc, i, -, hstep⟩ := step_cases s
  · exact ⟨_, hstep, hs⟩
  · exact ⟨_, hstep, hs⟩
  · exact ⟨_, hstep, hs⟩
  · have ⟨_, hsp, _⟩ := hbegin
    exact ⟨_, hstep.trans (exec_eq_successor (not_slotAbsent hsp)), inv_successor hbegin hpc i⟩

end

/-- Settles O51: the state a step answers is the one known to meet the invariant. -/
theorem stepKeepsInvariant : Obligations.StepKeepsInvariant := by
  intro s t hs h
  obtain ⟨t', hstep, ht'⟩ := exists_step hs
  obtain rfl : t' = t := Host.Outcome.next.inj (hstep.symm.trans h)
  exact ht'

/-- Settles O52: SP is at most 16, so no instruction can use a stack entry that does not exist. -/
theorem stepNeverStops : Obligations.StepNeverStops := by
  intro s hs
  obtain ⟨t, hstep, -⟩ := exists_step hs
  exact ⟨t, hstep⟩

/-! ## Reachable states -/

/-- The reset values of I, SP, PC and the stack are in range (R26). -/
theorem inv_of_reset_values {s : State} (hi : s.i = 0) (hsp : s.sp = 0) (hpc : s.pc = 0x200)
    (hstack : s.stack = Vector.replicate 16 0) (hmem : Mem.wf s.mem) (hd : 1 ≤ s.delayPeriod) (ht : 1 ≤ s.soundPeriod)
    (hw : 1 ≤ s.fb.width) (hh : 1 ≤ s.fb.height) : s.Inv := by
  refine ⟨by rw [hi]; decide, by rw [hsp]; decide, by rw [hpc]; decide, fun w hmem => ?_, hmem, hd, ht, hw, hh⟩
  rw [hstack, Vector.toList_replicate] at hmem
  rw [List.eq_of_mem_replicate hmem]
  decide

/-- A constructed machine meets the invariant (R135). -/
theorem inv_constructed {now w h pd ps : Nat} {js : List StepInput} {rs : List Byte} (hw : 1 ≤ w) (hh : 1 ≤ h)
    (hd : 1 ≤ pd) (hs : 1 ≤ ps) : (State.constructed now w h pd ps js rs).Inv :=
  inv_of_reset_values rfl rfl rfl rfl wf_nil hd hs hw hh

theorem wf_hostReset {s : State} (h : Mem.wf s.mem) (now : Nat) : Mem.wf (s.hostReset now).mem := by
  rw [State.hostReset_mem]
  exact wf_writeBlock h _ _ (by rw [glyphs_length]; decide)

theorem inv_hostReset {s : State} (hs : s.Inv) (now : Nat) : (s.hostReset now).Inv := by
  obtain ⟨-, -, -, -, hmem, hd, ht, hw, hh⟩ := hs
  exact inv_of_reset_values rfl rfl rfl rfl (wf_hostReset hmem now) hd ht hw hh

/-- A ROM that fits is stored inside memory; one that does not changes nothing the invariant speaks of (R137). -/
theorem inv_hostLoad {s : State} (hs : s.Inv) (rom : List Byte) (now : Nat) : (s.hostLoad rom now).Inv := by
  unfold State.hostLoad
  split
  · exact hs
  · next hlen =>
    have hfit : 0x200 + rom.length ≤ 4096 := by
      have : rom.length ≤ 3584 := Nat.not_lt.mp hlen
      omega
    exact inv_store (inv_hostReset hs now) hfit

/-- Every command of the host keeps the invariant (R127). -/
theorem inv_command {c : HostCommand} {s t : State} (hs : s.Inv) (h : command c s = .next t) : t.Inv := by
  cases c with
  | load rom now => exact Host.Outcome.next.inj h ▸ inv_hostLoad hs rom now
  | reset now => exact Host.Outcome.next.inj h ▸ inv_hostReset hs now
  | step => exact stepKeepsInvariant s t hs h
  | halt => exact Host.Outcome.next.inj h ▸ hs
  | dump => exact Host.Outcome.next.inj h ▸ hs

/-- Settles O53, by induction on how the state was reached. -/
theorem reachableStatesMeetInvariant : Obligations.ReachableStatesMeetInvariant := by
  intro s h
  induction h with
  | construct now w h pd ps js rs hw hh hd hs => exact inv_constructed hw hh hd hs
  | command c s t _ hc ih => exact inv_command ih hc
  | supply s js rs _ ih => exact ih

/-- Settles O50: the reset state is the machine constructed with this hardware's size and periods of at least 1. -/
theorem constructedMachineMeetsInvariant : Obligations.ConstructedMachineMeetsInvariant :=
  inv_constructed (now := 0) (js := []) (rs := []) (w := Config.fbW) (h := Config.fbH) (by decide) (by decide)
    (Nat.le_add_left 1 Config.delayPeriodLessOne) (Nat.le_add_left 1 Config.soundPeriodLessOne)

end Sys2Proof.Machine
end

section
/-! PROOFS. What no instruction depends on: the framebuffer, for every instruction but DRW (R21, R112), and the stack
entries at or above SP, for every instruction (R15, U18). -/

namespace Sys2Proof.Machine

/-! ## The framebuffer -/

/-- Two states that differ in the framebuffer alone are one state with another framebuffer. -/
theorem sameButScreen_iff {s t : State} : SameButScreen s t ↔ ∃ g, t = s.setScreen g :=
  ⟨fun h => ⟨t.fb, h.symm⟩, fun ⟨_, h⟩ => h ▸ rfl⟩

theorem errorOf_setScreen (i : Instr) (s : State) (g : Screen) : errorOf i (s.setScreen g) = errorOf i s := by
  cases i <;> rfl

theorem nextPc_setScreen (i : Instr) (s : State) (g : Screen) : nextPc i (s.setScreen g) = nextPc i s := by
  cases i <;> rfl

/-- Of the updates but DRW's, only that of CLS looks at the framebuffer, at its size. -/
theorem effect_setScreen {i : Instr} (hi : ∀ x y n, i ≠ .drw x y n) (s : State) (g : Screen) :
    ∃ g', effect i (s.setScreen g) = (effect i s).setScreen g' := by
  cases i
  case cls => exact ⟨Screen.clear g.width g.height, rfl⟩
  case drw x y n => exact absurd rfl (hi x y n)
  case call =>
    refine ⟨g, ?_⟩
    by_cases h : s.sp.toNat < 16
    · rw [effect_call h, effect_call (s := s.setScreen g) h]
      rfl
    · rw [effect_call_full h, effect_call_full (s := s.setScreen g) h]
  case ldKey x =>
    refine ⟨g, ?_⟩
    cases h : lowestKey s.keys with
    | some k => rw [effect, effect, receiveKey_some h, receiveKey_some (s := s.setScreen g) h]; rfl
    | none => rw [effect, effect, receiveKey_none h, receiveKey_none (s := s.setScreen g) h]
  all_goals exact ⟨g, rfl⟩

theorem successor_setScreen {i : Instr} (hi : ∀ x y n, i ≠ .drw x y n) (s : State) (g : Screen) :
    ∃ g', successor i (s.setScreen g) = (successor i s).setScreen g' := by
  have herr := errorOf_setScreen i s g
  cases he : errorOf i s with
  | some e =>
    rw [he] at herr
    rw [successor_of_error he, successor_of_error herr]
    exact ⟨g, rfl⟩
  | none =>
    rw [he] at herr
    rw [successor_of_no_error he, successor_of_no_error herr]
    by_cases hexit : i = .exit
    · subst hexit
      exact ⟨g, rfl⟩
    · obtain ⟨g', hg'⟩ := effect_setScreen hi s g
      rw [completed_of_ne_exit hexit, completed_of_ne_exit hexit, hg', nextPc_setScreen]
      exact ⟨g', rfl⟩

/-- Settles O48: the two states answer successors that differ in the framebuffer alone. -/
theorem onlyDrawReadsTheScreen : Obligations.OnlyDrawReadsTheScreen := by
  intro i s t s' hi hst h
  obtain ⟨g, rfl⟩ := sameButScreen_iff.mp hst
  obtain ⟨hslot, rfl⟩ := exec_next h
  obtain ⟨g', hg'⟩ := successor_setScreen hi s g
  exact ⟨_, exec_eq_successor hslot, sameButScreen_iff.mpr ⟨g', hg'⟩⟩

/-! ## Dead stack entries -/

/-- `s` with another call stack. -/
def withStack (s : State) (st : Vector Word 16) : State := { s with stack := st }

/-- The two stacks hold the same live frames, if there are `n`. -/
def AgreeBelow (n : Nat) (st st' : Vector Word 16) : Prop := ∀ (k : Nat) (h : k < 16), k < n → st'[k] = st[k]

theorem sameButDeadEntries_iff {s t : State} :
    SameButDeadEntries s t ↔ ∃ st, t = withStack s st ∧ AgreeBelow s.sp.toNat s.stack st := by
  constructor
  · rintro ⟨h, hlive⟩
    exact ⟨t.stack, h.symm, hlive⟩
  · rintro ⟨st, rfl, hlive⟩
    exact ⟨rfl, hlive⟩

theorem errorOf_withStack (i : Instr) (s : State) (st : Vector Word 16) : errorOf i (withStack s st) = errorOf i s := by
  cases i <;> rfl

/-- The one entry that is read, by RET, is a live one. -/
theorem nextPc_withStack {i : Instr} {s : State} {st : Vector Word 16} (h : AgreeBelow s.sp.toNat s.stack st)
    (he : errorOf i s = none) (hslot : ¬ SlotAbsent i s) : nextPc i (withStack s st) = nextPc i s := by
  cases i
  case ret =>
    have h0 := sp_ne_zero_of_ret he
    have hlt : s.sp.toNat - 1 < 16 := by
      have : s.sp.toNat ≤ 16 := Nat.not_lt.mp fun hsp => hslot ⟨.inl rfl, hsp⟩
      omega
    show (st[s.sp.toNat - 1]?.getD 0) = s.stack[s.sp.toNat - 1]?.getD 0
    rw [Vector.getElem?_eq_getElem hlt, Vector.getElem?_eq_getElem hlt, h _ hlt (by omega)]
  all_goals rfl

/-- A push writes the same entry of both stacks, and a pop makes no entry live. -/
theorem effect_withStack {i : Instr} {s : State} {st : Vector Word 16} (h : AgreeBelow s.sp.toNat s.stack st)
    (he : errorOf i s = none) :
    ∃ st', effect i (withStack s st) = withStack (effect i s) st' ∧
      AgreeBelow (effect i s).sp.toNat (effect i s).stack st' := by
  cases i
  case ret =>
    refine ⟨st, rfl, fun k hk hlive => h k hk ?_⟩
    have hsp : s.pop.sp.toNat = s.sp.toNat - 1 := pop_sp_toNat (sp_ne_zero_of_ret he)
    exact lt_of_lt_of_le (hsp ▸ hlive) (Nat.sub_le _ _)
  case call =>
    by_cases hlt : s.sp.toNat < 16
    · rw [effect_call hlt, effect_call (s := withStack s st) hlt]
      refine ⟨st.set s.sp.toNat (s.pc + 2#16) hlt, rfl, fun k hk hlive => ?_⟩
      rw [push_sp_toNat] at hlive
      rw [State.push_stack, Vector.getElem_set, Vector.getElem_set]
      split
      · rfl
      · exact h k hk (by omega)
    · rw [effect_call_full hlt, effect_call_full (s := withStack s st) hlt]
      exact ⟨st, rfl, h⟩
  case ldKey x =>
    refine ⟨st, ?_, ?_⟩
    · cases hk : lowestKey s.keys with
      | some k => rw [effect, effect, receiveKey_some hk, receiveKey_some (s := withStack s st) hk]; rfl
      | none => rw [effect, effect, receiveKey_none hk, receiveKey_none (s := withStack s st) hk]
    · obtain ⟨v, hv⟩ := receiveKey_eq s x
      rw [effect, hv]
      exact h
  all_goals exact ⟨st, rfl, h⟩

theorem successor_withStack {i : Instr} {s : State} {st : Vector Word 16} (h : AgreeBelow s.sp.toNat s.stack st)
    (hslot : ¬ SlotAbsent i s) :
    ∃ st', successor i (withStack s st) = withStack (successor i s) st' ∧
      AgreeBelow (successor i s).sp.toNat (successor i s).stack st' := by
  have herr := errorOf_withStack i s st
  cases he : errorOf i s with
  | some e =>
    rw [he] at herr
    rw [successor_of_error he, successor_of_error herr]
    exact ⟨st, rfl, h⟩
  | none =>
    rw [he] at herr
    rw [successor_of_no_error he, successor_of_no_error herr]
    by_cases hexit : i = .exit
    · subst hexit
      exact ⟨st, rfl, h⟩
    · obtain ⟨st', hst', hlive⟩ := effect_withStack h he
      rw [completed_of_ne_exit hexit, completed_of_ne_exit hexit, hst', nextPc_withStack h he hslot]
      exact ⟨st', rfl, hlive⟩

/-- Settles O49: the two states answer successors that differ in dead entries alone. -/
theorem deadStackEntriesAreUnobservable : Obligations.DeadStackEntriesAreUnobservable := by
  intro i s t s' hst h
  obtain ⟨st, rfl, hlive⟩ := sameButDeadEntries_iff.mp hst
  obtain ⟨hslot, rfl⟩ := exec_next h
  obtain ⟨st', hst', hlive'⟩ := successor_withStack hlive hslot
  exact ⟨_, exec_eq_successor hslot, sameButDeadEntries_iff.mpr ⟨st', hst', hlive'⟩⟩

end Sys2Proof.Machine
end

section
/-! PROOFS. The timers, the step and the host's commands: one period per decrement (R122), the four cases of a step
(R57 to R61), reset, load, halt and dump (R126 to R129, R136, R137). -/

namespace Sys2Proof.Machine

/-! ## Timers -/

/-- One timer phase either leaves counter and gate, or moves the gate to a later time and lowers a nonzero counter. -/
theorem tick_cases (period now gate : Nat) (c : Byte) :
    (tickCounter period now gate c = c ∧ gate ≤ tickGate period now gate) ∨
    (c ≠ 0#8 ∧ tickCounter period now gate c = c - 1#8 ∧ gate + period ≤ tickGate period now gate) := by
  by_cases hf : gateFires period now gate = true
  · obtain ⟨hle, hperiod⟩ := (gateFires_iff period now gate).mp hf
    have hgate : tickGate period now gate = now := if_pos hf
    obtain ⟨-, hc, hfall⟩ | hkeep := tickCounter_cases period now gate c
    · exact .inr ⟨hc, hfall, by omega⟩
    · exact .inl ⟨hkeep, by omega⟩
  · exact .inl ⟨if_neg fun h => hf h.1, (if_neg hf).ge⟩

/-- Settles O14, by induction on the times: a phase that lowers the counter moves the gate by a period at least. -/
theorem counterFallsAtMostOncePerPeriod : Obligations.CounterFallsAtMostOncePerPeriod := by
  intro period times c gate
  induction times generalizing c gate with
  | nil => simp [tickAll]
  | cons now times ih =>
    rw [tickAll, List.length_cons]
    obtain ⟨hle, hgate, hperiod, hcount⟩ := ih (tickCounter period now gate c) (tickGate period now gate)
    generalize tickAll period times _ = final at *
    obtain ⟨hkeep, hmove⟩ | ⟨hc, hfall, hmove⟩ := tick_cases period now gate c
    · rw [hkeep] at hle hperiod hcount
      exact ⟨hle, by omega, by omega, by omega⟩
    · have hdec : c.toNat = (c - 1#8).toNat + 1 := by bv_omega
      rw [hfall] at hle hperiod hcount
      have hsplit : c.toNat - final.1.toNat = (c - 1#8).toNat - final.1.toNat + 1 := by omega
      refine ⟨by omega, by omega, ?_, by omega⟩
      rw [hsplit, Nat.succ_mul]
      omega

/-! ## Steps -/

/-- Settles O10: of the four cases of a step, the only one of a halted machine. -/
theorem haltedStepDoesNothing : Obligations.HaltedStepDoesNothing := by
  intro s hrun
  obtain ⟨-, hstep⟩ | ⟨hr, -⟩ | ⟨hr, -⟩ | ⟨hr, -⟩ := step_cases s
  · exact hstep
  all_goals exact nomatch hrun.symm.trans hr

/-- Settles O11: the fetched word decodes, so the step is the instruction at `beginStep`, which is `atFetch`. -/
theorem stepRunsDecodedInstruction : Obligations.StepRunsDecodedInstruction := by
  intro s i hrun hpc hdec
  rw [← beginStep_eq_atFetch]
  obtain ⟨hr, -⟩ | ⟨-, hp, -⟩ | ⟨-, -, r, hd, -⟩ | ⟨-, -, j, hd, hstep⟩ := step_cases s
  · exact nomatch hrun.symm.trans hr
  · exact absurd hpc hp
  · exact nomatch hdec.symm.trans hd
  · rw [hstep, Except.ok.inj (hdec.symm.trans hd)]

/-- Settles O12: the range of the fetch is checked first. -/
theorem fetchPastTheEndHalts : Obligations.FetchPastTheEndHalts := by
  intro s hrun hpc
  rw [← beginStep_eq_atFetch]
  obtain ⟨hr, -⟩ | ⟨-, -, hstep⟩ | ⟨-, hp, -⟩ | ⟨-, hp, -⟩ := step_cases s
  · exact nomatch hrun.symm.trans hr
  · exact hstep
  all_goals exact absurd hpc (Nat.not_lt.mpr hp)

/-- Settles O13: the fetched word, which does not decode, is the one the error records. -/
theorem illegalWordHalts : Obligations.IllegalWordHalts := by
  intro s w r hrun hpc hw hdec
  rw [← beginStep_eq_atFetch]
  replace hw : w = s.fetchWord := hw
  subst hw
  obtain ⟨hr, -⟩ | ⟨-, hp, -⟩ | ⟨-, -, r', -, hstep⟩ | ⟨-, -, j, hd, -⟩ := step_cases s
  · exact nomatch hrun.symm.trans hr
  · exact absurd hpc hp
  · exact hstep
  · exact nomatch hdec.symm.trans hd

/-! ## Reset and load -/

theorem reg_of_zero {s : State} (h : s.v = Vector.replicate 16 0) (r : RegNum) : s.reg r = 0 := by
  simp [State.reg, h]

theorem stack_of_zero {s : State} (h : s.stack = Vector.replicate 16 0) (k : Nat) (hk : k < 16) : s.stack[k] = 0 := by
  simp [h]

/-- Settles O6: every field of the constructed machine is given, and its empty memory reads as the contents at
construction. -/
theorem constructedMachineValues : Obligations.ConstructedMachineValues :=
  ⟨reg_of_zero rfl, rfl, rfl, rfl, rfl, rfl, rfl, rfl, rfl, pixel_clear _ _, stack_of_zero rfl, resetByte_glyph,
    resetByte_above, rfl⟩

/-- `reset()` writes the glyph table (R136). -/
theorem read_hostReset_glyph (s : State) (now a : Nat) (h : a < 80) :
    Mem.read (s.hostReset now).mem a = glyphs[a]'(by rw [glyphs_length]; exact h) := by
  have hin := read_writeBlock_inside s.mem 0 a glyphs (by rw [glyphs_length]; exact h)
  rwa [Nat.zero_add, ← State.hostReset_mem s now] at hin

/-- `reset()` keeps memory above the glyph table (R136). -/
theorem read_hostReset_above (s : State) (now a : Nat) (h : 0x050 ≤ a) :
    Mem.read (s.hostReset now).mem a = Mem.read s.mem a := by
  rw [State.hostReset_mem]
  exact read_writeBlock_outside _ _ _ _ (.inr (by rw [glyphs_length]; exact h))

/-- Settles O7: every field is given but memory, of which the table is written and the rest kept. -/
theorem resetCommandRestores : Obligations.ResetCommandRestores := by
  intro s now
  exact ⟨reg_of_zero rfl, rfl, rfl, rfl, rfl, rfl, rfl, pixel_clear _ _, stack_of_zero rfl, rfl, rfl, rfl, rfl, rfl,
    rfl, read_hostReset_glyph s now, read_hostReset_above s now⟩

theorem hostLoad_fits (s : State) {rom : List Byte} (now : Nat) (h : rom.length ≤ 3584) :
    s.hostLoad rom now = { (s.hostReset now).store 0x200 rom with status := some .ok } :=
  if_neg (Nat.not_lt.mpr h)

theorem hostLoad_too_large (s : State) {rom : List Byte} (now : Nat) (h : 3584 < rom.length) :
    s.hostLoad rom now = erred s (.romTooLarge rom.length) :=
  if_pos h

/-- Settles O8: a ROM that fits is stored over the reset machine, whose bytes outside the ROM it keeps. -/
theorem loadCopiesTheRomOrHalts : Obligations.LoadCopiesTheRomOrHalts := by
  intro s rom now
  constructor
  · intro hfit
    have houtside : ∀ a, a < 0x200 ∨ 0x200 + rom.length ≤ a →
        Mem.read ((s.hostReset now).store 0x200 rom).mem a = Mem.read (s.hostReset now).mem a := fun a ha =>
      read_writeBlock_outside _ _ _ _ ha
    refine ⟨_, hostLoad_fits s now hfit, rfl, rfl, rfl, rfl, rfl, rfl, rfl, rfl, rfl, rfl, rfl, rfl, rfl,
      reg_of_zero rfl, pixel_clear _ _, stack_of_zero rfl, ?rom, ?glyphs, ?above⟩
    case rom => exact fun j hj => read_writeBlock_inside _ _ _ _ hj
    case glyphs => exact fun a ha => (houtside a (.inl (by omega))).trans (read_hostReset_glyph s now a ha)
    case above => exact fun a ha hout => (houtside a hout).trans (read_hostReset_above s now a ha)
  · exact hostLoad_too_large s now

/-! ## Halt, dump and the tone -/

/-- Settles O9: the commands and outputs are what their definitions say; the tone decides `0 < ST`. -/
theorem haltDumpAndTone : Obligations.HaltDumpAndTone := by
  intro s
  exact ⟨rfl, rfl, rfl, decide_eq_true_iff, rfl⟩

end Sys2Proof.Machine
end

section
/-! PROOFS. An instruction that raises no error completes inside its own footprint; and the statements about control
flow and register skips (41_control_flow R70 to R75, 42_skips R78, R79). -/

namespace Sys2Proof.Machine

/-! ## Completion inside the footprint -/

/-- An instruction that performs its update and goes to `w` completes inside its footprint. -/
theorem completes_of_effect {i : Instr} {s : State} {w : Word} {P : State → Prop}
    (hexec : exec i s = (effect i s).goto w) (hP : P ((effect i s).finish w)) : Completes i s (footprint i s) P :=
  completes_of_goto hexec (effect_run i s) (framedBy_effect i s) hP

/-- Where its error condition does not hold, an instruction other than EXIT completes inside its footprint. -/
theorem completes_of_no_error {i : Instr} {s : State} {P : State → Prop} (hslot : ¬ SlotAbsent i s)
    (he : errorOf i s = none) (hexit : i ≠ .exit) (hP : P ((effect i s).finish (nextPc i s))) :
    Completes i s (footprint i s) P := by
  have hexec : exec i s = (effect i s).goto (nextPc i s) := by
    rw [exec_eq_successor hslot, successor_of_no_error he, completed_of_ne_exit hexit, goto_eq]
  exact completes_of_effect hexec hP

/-! ## RET and CALL -/

/-- Settles O17: with SP between 1 and 16 RET completes with the update `pop`; with SP = 0 it raises its error. -/
theorem retPopsTheReturnAddress : Obligations.RetPopsTheReturnAddress := by
  intro s
  constructor
  · intro hlt h0
    have hpc : nextPc .ret s = s.stack[s.sp.toNat - 1] := by
      rw [nextPc_ret, Vector.getElem?_eq_getElem hlt, Option.getD_some]
    exact completes_of_no_error (not_slotAbsent (by omega)) ((errorOf_ret s).trans (if_neg h0)) (by simp)
      ⟨pop_sp_toNat h0, hpc⟩
  · intro h0
    exact popReturn_empty h0

/-- Settles O18: with SP below 16 CALL completes with the update `push`; with SP = 16 it raises its error. -/
theorem callPushesTheNextAddress : Obligations.CallPushesTheNextAddress := by
  intro s nnn
  constructor
  · intro hlt
    have herr : errorOf (.call nnn) s = none := (errorOf_call nnn s).trans (if_neg (by omega))
    refine completes_of_no_error (not_slotAbsent (by omega)) herr (by simp) ?_
    rw [effect_call hlt]
    exact ⟨Vector.getElem_set_self hlt, push_sp_toNat s (s.pc + 2#16) hlt, zextAddr_toNat nnn⟩
  · intro h16
    exact pushCall_full _ _ h16

/-! ## JP V0, SYS and EXIT -/

/-- Settles O21: JP V0 updates nothing, and the sum, at most 0x10FE, fits a PC of 16 bits. -/
theorem jumpV0AddsV0 : Obligations.JumpV0AddsV0 := by
  intro s nnn
  exact completes_of_no_error (by simp [SlotAbsent]) rfl (by simp) (nextPc_jpV0_toNat nnn s)

/-- Settles O22: SYS updates nothing before it advances. -/
theorem sysOnlyAdvances : Obligations.SysOnlyAdvances := by
  intro s nnn
  exact completes_of_effect (i := .sys nnn) rfl rfl

/-- Settles O23: EXIT leaves the machine halted, where a step does nothing. -/
theorem exitHalts : Obligations.ExitHalts := by
  intro s
  exact ⟨s.haltExit, rfl, rfl, haltedStepDoesNothing s.haltExit s.haltExit_run⟩

/-! ## SE and SNE with a register -/

theorem exec_seReg (x y : RegNum) (s : State) : exec (.seReg x y) s = s.skipIf (s.reg x == s.reg y) := rfl

theorem exec_sneReg (x y : RegNum) (s : State) : exec (.sneReg x y) s = s.skipIf (s.reg x != s.reg y) := rfl

/-- Settles O25: both instructions only skip, SE on equality and SNE on its negation, and their words decode by category
and registers alone. -/
theorem skipOnRegister : Obligations.SkipOnRegister := by
  intro s x y n
  refine ⟨?se, ?sne, decode_seReg x y n, decode_sneReg x y n⟩
  case se => exact completes_of_skipIf (exec_seReg x y s) (by simp only [beq_iff_eq])
  case sne => exact completes_of_skipIf (exec_sneReg x y s) (by simp only [bne_iff_ne, ne_eq, ite_not])

/-! ## Nested calls -/

/-- Executing one list after another. -/
theorem execAll_append {is js : List Instr} {s t : State} (h : execAll is s = .next t) :
    execAll (is ++ js) s = execAll js t := by
  induction is generalizing s with
  | nil => rw [List.nil_append, Host.Outcome.next.inj h]
  | cons i is ih =>
    rw [List.cons_append, execAll]
    rw [execAll] at h
    cases hi : exec i s with
    | next u =>
      rw [hi] at h
      exact ih h
    | fault r => simp [hi] at h
    | refused r => simp [hi] at h

theorem execAll_cons {i : Instr} {is : List Instr} {s t : State} (h : exec i s = .next t) :
    execAll (i :: is) s = execAll is t := by
  rw [execAll, h]

/-- `t` is a state to which calls from `s` have returned: the live frames of `s` are as they were. -/
def ReturnedTo (s t : State) : Prop :=
  t.sp = s.sp ∧ t.run = s.run ∧ ∀ (k : Nat) (h : k < 16), k < s.sp.toNat → t.stack[k] = s.stack[k]

/-- CALL, then anything that returns to its state, then RET: PC is behind the CALL, and this returns again. -/
theorem ret_of_returnedTo_push {s t : State} {w target : Word} (hlt : s.sp.toNat < 16)
    (h : ReturnedTo ((s.push w hlt).finish target) t) :
    ∃ u, exec .ret t = .next u ∧ u.pc = w ∧ ReturnedTo s u := by
  obtain ⟨hsp, hrun, hlive⟩ := h
  rw [State.finish_sp, push_sp_toNat, State.finish_stack, State.push_stack] at hlive
  have hcount : t.sp.toNat = s.sp.toNat + 1 := by rw [hsp, State.finish_sp, push_sp_toNat]
  have htop : t.sp.toNat - 1 = s.sp.toNat := by omega
  have h0 : t.sp.toNat ≠ 0 := by omega
  have hin : t.sp.toNat - 1 < 16 := htop ▸ hlt
  refine ⟨_, popReturn_live h0 hin, ?pc, ?sp, hrun, ?live⟩
  case pc =>
    simp only [State.finish_pc, htop]
    rw [hlive _ hlt (Nat.lt_succ_self _), Vector.getElem_set_self]
  case sp =>
    rw [State.finish_sp, State.pop_sp, hsp, State.finish_sp, State.push_sp]
    exact BitVec.add_sub_cancel s.sp 1#8
  case live =>
    intro k hk hks
    rw [State.finish_stack, State.pop_stack, hlive k hk (by omega), Vector.getElem_set_ne _ _ (Nat.ne_of_gt hks)]

/-- Calls nested to any depth and as many RETs return, by induction on the targets: the calls inside the first return to
its state. -/
theorem nestedCalls_return (targets : List Addr12) (s : State) (h : s.sp.toNat + targets.length ≤ 16) :
    ∃ t, execAll (targets.map Instr.call ++ List.replicate targets.length .ret) s = .next t ∧ ReturnedTo s t ∧
      (targets ≠ [] → t.pc = s.pc + 2#16) := by
  induction targets generalizing s with
  | nil => exact ⟨s, rfl, ⟨rfl, rfl, fun _ _ _ => rfl⟩, fun hne => absurd rfl hne⟩
  | cons target targets ih =>
    rw [List.length_cons] at h
    have hlt : s.sp.toNat < 16 := by omega
    have hcall : exec (.call target) s = .next ((s.push (s.pc + 2#16) hlt).finish (zextAddr target)) :=
      pushCall_room _ _ hlt
    have hroom : ((s.push (s.pc + 2#16) hlt).finish (zextAddr target)).sp.toNat + targets.length ≤ 16 := by
      rw [State.finish_sp, push_sp_toNat]
      omega
    obtain ⟨t, hexec, hback, -⟩ := ih _ hroom
    obtain ⟨u, hret, hpc, hreturned⟩ := ret_of_returnedTo_push hlt hback
    refine ⟨u, ?_, hreturned, fun _ => hpc⟩
    rw [List.map_cons, List.length_cons, List.replicate_succ', ← List.append_assoc, List.cons_append,
      List.cons_append, execAll_cons hcall, execAll_append hexec, execAll_cons hret]
    rfl

/-- Settles O19: a nonempty list of targets. -/
theorem nestedCallsReturn : Obligations.NestedCallsReturn := by
  intro s targets hne h
  obtain ⟨t, hexec, ⟨hsp, hrun, -⟩, hpc⟩ := nestedCalls_return targets s h
  exact ⟨t, hexec, hpc hne, hsp, hrun⟩

end Sys2Proof.Machine
end

section
/-! PROOFS. The arithmetic instructions that write a flag (43_alu R80, R81, R88 to R92). -/

namespace Sys2Proof.Machine

/-! ## Writing a result and a flag -/

/-- An instruction that writes a result to `Vx`, then a flag to VF, and advances: with x = F the flag stays (R81). -/
theorem completes_of_setRegFlag {i : Instr} {s : State} {x : RegNum} {b c : Byte} {P : State → Prop}
    (hexec : exec i s = (s.setRegFlag x b c).advance)
    (hP : ∀ t : State, t.pc = s.pc + 2#16 → (x ≠ vF → t.reg x = b) → t.reg vF = c → P t) :
    Completes i s { regs := [x, vF] } P := by
  have hframe : FramedBy { regs := [x, vF] } s (s.setRegFlag x b c) :=
    framedBy_setRegFlag (framedBy_refl _ s) (by simp) (by simp)
  refine completes_of_goto hexec rfl hframe (hP _ rfl (fun hx => ?_) ?_)
  · rw [reg_finish, reg_setRegFlag, if_neg hx, if_pos rfl]
  · rw [reg_finish, reg_setRegFlag, if_pos rfl]

theorem flagByte_decide (p : Prop) [Decidable p] : flagByte (decide p) = if p then 1#8 else 0#8 := by
  rw [flagByte_eq, if_congr decide_eq_true_iff rfl rfl]

theorem flagByte_toNat (c : Bool) : (flagByte c).toNat = c.toNat := by
  cases c <;> rfl

/-- The difference of bytes is the exact difference modulo 256 (R80). -/
theorem sub_toNat_mod (a b : Byte) : ((a - b).toNat : Int) = (a.toNat - b.toNat : Int) % 256 := by
  rw [BitVec.toNat_sub]
  omega

/-! ## ADD, SUB, SUBN -/

theorem exec_addReg (x y : RegNum) (s : State) :
    exec (.addReg x y) s = (s.setRegFlag x (s.reg x + s.reg y) (carryFlag (s.reg x) (s.reg y))).advance := rfl

theorem exec_subReg (x y : RegNum) (s : State) :
    exec (.subReg x y) s = (s.setRegFlag x (s.reg x - s.reg y) (noBorrowFlag (s.reg x) (s.reg y))).advance := rfl

theorem exec_subnReg (x y : RegNum) (s : State) :
    exec (.subnReg x y) s = (s.setRegFlag x (s.reg y - s.reg x) (noBorrowFlag (s.reg y) (s.reg x))).advance := rfl

/-- Settles O28: the result is the sum of bytes and the flag the carry of the exact sum. -/
theorem addSetsTheCarry : Obligations.AddSetsTheCarry := by
  intro s x y
  refine completes_of_setRegFlag (exec_addReg x y s) fun t hpc hreg hflag => ⟨hpc, fun hx => ?_, ?_⟩
  · rw [hreg hx, BitVec.toNat_add]
  · rw [hflag, carryFlag, flagByte_decide]

/-- Settles O29: SUBN is SUB with the operands exchanged; each flag compares the old values. -/
theorem subtractionsSetNoBorrow : Obligations.SubtractionsSetNoBorrow := by
  intro s x y
  constructor
  · refine completes_of_setRegFlag (exec_subReg x y s) fun t hpc hreg hflag => ⟨hpc, fun hx => ?_, ?_⟩
    · rw [hreg hx, sub_toNat_mod]
    · rw [hflag, noBorrowFlag, flagByte_decide]
  · refine completes_of_setRegFlag (exec_subnReg x y s) fun t hpc hreg hflag => ⟨hpc, fun hx => ?_, ?_⟩
    · rw [hreg hx, sub_toNat_mod]
    · rw [hflag, noBorrowFlag, flagByte_decide]

/-! ## SHR and SHL -/

theorem exec_shr (x : RegNum) (s : State) :
    exec (.shr x) s = (s.setRegFlag x (s.reg x >>> 1) (lsbFlag (s.reg x))).advance := rfl

theorem exec_shl (x : RegNum) (s : State) :
    exec (.shl x) s = (s.setRegFlag x (s.reg x <<< 1) (msbFlag (s.reg x))).advance := rfl

theorem lsbFlag_toNat (a : Byte) : (lsbFlag a).toNat = a.toNat % 2 := by
  rw [lsbFlag, flagByte_toNat, BitVec.getLsbD, Nat.toNat_testBit, Nat.pow_zero, Nat.div_one]

theorem msbFlag_toNat (a : Byte) : (msbFlag a).toNat = a.toNat / 128 := by
  have := a.isLt
  rw [msbFlag, flagByte_toNat, BitVec.getLsbD, Nat.toNat_testBit]
  omega

/-- Settles O30: a shift by one halves or doubles the byte, and the flag is the bit that falls out. -/
theorem shiftsSetTheLostBit : Obligations.ShiftsSetTheLostBit := by
  intro s x
  constructor
  · refine completes_of_setRegFlag (exec_shr x s) fun t hpc hreg hflag => ⟨hpc, fun hx => ?_, ?_⟩
    · rw [hreg hx, BitVec.toNat_ushiftRight, Nat.shiftRight_eq_div_pow, Nat.pow_one]
    · rw [hflag, lsbFlag_toNat]
  · refine completes_of_setRegFlag (exec_shl x s) fun t hpc hreg hflag => ⟨hpc, fun hx => ?_, ?_⟩
    · rw [hreg hx, BitVec.toNat_shiftLeft, Nat.shiftLeft_eq, Nat.pow_one]
    · rw [hflag, msbFlag_toNat]

end Sys2Proof.Machine
end

section
/-! PROOFS. ADD I, the decimal store and the block transfers (44_index_memory R94 to R99), a store before its load, and
a store over the next instruction (20_memory R43). -/

namespace Sys2Proof.Machine

/-! ## ADD I, Vx -/

theorem exec_addI (x : RegNum) (s : State) : exec (.addI x) s = (s.setI (s.i + zextByte (s.reg x))).advance := rfl

/-- Settles O32: the 16-bit sum wraps at a multiple of 4096, so the 12 bits kept are those of the exact sum. -/
theorem addToIndexWraps : Obligations.AddToIndexWraps := by
  intro s x
  refine completes_of_setI (exec_addI x s) ?_
  rw [BitVec.toNat_add, zextByte_toNat]
  omega

/-! ## LD B, Vx -/

theorem bcdDigits_toNat (b : Byte) :
    (bcdDigits b).map BitVec.toNat = [b.toNat / 100, b.toNat / 10 % 10, b.toNat % 10] := by
  have := b.isLt
  simp [bcdDigits]
  omega

/-- Settles O33: inside the range the three digits are stored in order; past it the access is refused before any
write. -/
theorem bcdStoresDigits : Obligations.BcdStoresDigits := by
  intro s x
  constructor
  · intro hin
    have herr : errorOf (.ldBcd x) s = none := (errorOf_ldBcd x s).trans (if_neg (by omega))
    have hread : ∀ (k : Nat) (hk : k < 3), (Mem.read (Mem.writeBlock s.mem s.i.toNat (bcdDigits (s.reg x)))
        (s.i.toNat + k)).toNat = [(s.reg x).toNat / 100, (s.reg x).toNat / 10 % 10, (s.reg x).toNat % 10][k] := by
      intro k hk
      rw [read_writeBlock_inside _ _ _ _ (by exact hk)]
      simp only [← bcdDigits_toNat, List.getElem_map]
      rfl
    exact completes_of_no_error (by simp [SlotAbsent]) herr (by simp)
      ⟨rfl, hread 0 (by decide), hread 1 (by decide), hread 2 (by decide)⟩
  · intro hout
    rw [exec_ldBcd_eq_successor, successor_of_error ((errorOf_ldBcd x s).trans (if_pos hout))]

/-! ## LD [I], Vx and LD Vx, [I] -/

/-- A block store inside the range completes. -/
theorem storeRegs_completes {s : State} {x : RegNum} (h : s.i.toNat + x.toNat ≤ 0xFFF) :
    exec (.storeRegs x) s = .next ((s.store s.i.toNat (s.lowRegs x)).finish (s.pc + 2#16)) := by
  rw [exec_storeRegs_eq_successor, successor_of_no_error ((errorOf_storeRegs x s).trans (if_neg (by omega)))]
  rfl

/-- A block load inside the range completes. -/
theorem loadRegs_completes {s : State} {x : RegNum} (h : s.i.toNat + x.toNat ≤ 0xFFF) :
    exec (.loadRegs x) s = .next ((s.loadLowRegs x s.i.toNat).finish (s.pc + 2#16)) := by
  rw [exec_loadRegs_eq_successor, successor_of_no_error ((errorOf_loadRegs x s).trans (if_neg (by omega)))]
  rfl

/-- After a block store `Vr` is at `I + r` (R98). -/
theorem read_store_lowRegs (s : State) {x r : RegNum} (h : r.toNat ≤ x.toNat) :
    Mem.read (s.store s.i.toNat (s.lowRegs x)).mem (s.i.toNat + r.toNat) = s.reg r := by
  have hr : r.toNat < (s.lowRegs x).length := by
    rw [lowRegs_length]
    omega
  rw [State.store_mem, read_writeBlock_inside _ _ _ _ hr, lowRegs_getElem]

/-- Settles O34: inside the range the registers are stored in order; past it nothing is written. -/
theorem storeRegistersToMemory : Obligations.StoreRegistersToMemory := by
  intro s x
  constructor
  · intro hin
    exact completes_of_effect (storeRegs_completes hin) ⟨rfl, fun r hr => read_store_lowRegs s hr⟩
  · intro hout
    rw [exec_storeRegs_eq_successor, successor_of_error ((errorOf_storeRegs x s).trans (if_pos hout))]

/-- Settles O35: inside the range the bytes are loaded in order; past it no register is written. -/
theorem loadRegistersFromMemory : Obligations.LoadRegistersFromMemory := by
  intro s x
  constructor
  · intro hin
    exact completes_of_effect (loadRegs_completes hin) ⟨rfl, fun r => reg_loadLowRegs s x r _⟩
  · intro hout
    rw [exec_loadRegs_eq_successor, successor_of_error ((errorOf_loadRegs x s).trans (if_pos hout))]

/-- Settles O36: the store leaves I, so the load reads the block that was stored. -/
theorem storeThenLoadRestores : Obligations.StoreThenLoadRestores := by
  intro s x v hin
  refine ⟨_, _, storeRegs_completes hin, loadRegs_completes hin, fun r => ?_⟩
  rw [reg_finish, reg_loadLowRegs]
  split
  · next hr => exact read_store_lowRegs s hr
  · rfl

/-- Settles O15: with I = PC + 2 the bytes at the next PC are the first two that were stored, V0 and V1. -/
theorem storedWordIsFetchedNext : Obligations.StoredWordIsFetchedNext := by
  intro s x hpc hi hx hin
  have hnext : (s.pc + 2#16).toNat = s.pc.toNat + 2 := by bv_omega
  refine ⟨_, storeRegs_completes hin, hnext, ?_⟩
  have h0 := read_store_lowRegs s (x := x) (r := 0#4) (Nat.zero_le _)
  have h1 := read_store_lowRegs s (x := x) (r := 1#4) hx
  rw [State.fetchWord, wordOfBytes, State.finish_pc, hnext, ← hi]
  exact congrArg₂ _ h0 h1

end Sys2Proof.Machine
end

section
/-! PROOFS. The random, key and timer instructions (45_random_keys_timers R100 to R107). -/

namespace Sys2Proof.Machine

/-! ## RND -/

/-- Settles O37: RND writes the masked byte; the byte and the rest of the list are those of the source. -/
theorem rndTakesOneByte : Obligations.RndTakesOneByte := by
  intro s x kk
  have hreg : ((effect (.rnd x kk) s).finish (s.pc + 2#16)).reg x = s.randomByte &&& kk := by
    rw [effect, reg_finish, reg_setReg, if_pos rfl]
  refine completes_of_effect (w := s.pc + 2#16) rfl ⟨rfl, ?fixed, ?free, rfl, ?zero⟩
  case fixed =>
    intro r rs hrs
    rw [hreg, State.randomByte, hrs]
    exact ⟨rfl, congrArg List.tail hrs⟩
  case free =>
    intro hnil
    rw [hreg, State.randomByte, hnil]
    exact ⟨rfl, congrArg List.tail hnil⟩
  case zero =>
    rintro rfl
    rw [hreg]
    exact BitVec.and_zero

/-! ## Keys -/

theorem exec_skp (x : RegNum) (s : State) :
    exec (.skp x) s = s.skipIf (keyPressed s.keys (keyIndex (s.reg x))) := rfl

theorem exec_sknp (x : RegNum) (s : State) :
    exec (.sknp x) s = s.skipIf (!keyPressed s.keys (keyIndex (s.reg x))) := rfl

/-- Settles O38: both instructions only skip, on the key Vx mod 16 and on its negation. -/
theorem skipOnKey : Obligations.SkipOnKey := by
  rintro s x k h rfl
  have hkey : keyPressed s.keys (keyIndex (s.reg x)) = s.keys[(s.reg x).toNat % 16] := by
    rw [keyIndex_eq, keyPressed_eq _ _ h]
  constructor
  · exact completes_of_skipIf (exec_skp x s) (by rw [hkey])
  · exact completes_of_skipIf (exec_sknp x s) (by simp only [hkey, Bool.not_eq_true', ← Bool.not_eq_true, ite_not])

/-- The key received is the first pressed one (R104). -/
theorem lowestKey_eq_some {keys : Keys} {k : Nat} (h : k < 16) (hk : keys[k] = true)
    (hlow : ∀ (j : Nat) (hj : j < k), keys[j] = false) : lowestKey keys = some k := by
  rw [lowestKey, List.find?_range_eq_some]
  refine ⟨(keyPressed_eq keys k h).trans hk, List.mem_range.mpr h, fun j hj => ?_⟩
  rw [keyPressed_eq keys j (by omega), hlow j hj]
  rfl

theorem lowestKey_eq_none {keys : Keys} (h : ∀ (k : Nat) (h : k < 16), keys[k] = false) : lowestKey keys = none := by
  rw [lowestKey, List.find?_eq_none]
  intro k hk
  have hlt : k < 16 := List.mem_range.mp hk
  rw [keyPressed_eq keys k hlt, h k hlt]
  exact Bool.false_ne_true

/-- LD Vx, K receives a key and goes on, or waits at its PC. -/
theorem exec_ldKey (x : RegNum) (s : State) :
    exec (.ldKey x) s = (s.receiveKey x).goto (if (lowestKey s.keys).isSome then s.pc + 2#16 else s.pc) := rfl

/-- Settles O39: the lowest pressed key is written as LD Vx writes a byte; with none pressed nothing is updated. -/
theorem keyWaitReceivesLowestKey : Obligations.KeyWaitReceivesLowestKey := by
  intro s x
  constructor
  · intro k h hk hlow
    have hkey := lowestKey_eq_some h hk hlow
    have hexec : exec (.ldKey x) s = (s.setReg x (BitVec.ofNat 8 k)).advance := by
      rw [exec_ldKey, receiveKey_some hkey, hkey]
      rfl
    refine completes_of_setReg hexec fun t hreg hpc => ⟨?_, hpc⟩
    rw [hreg, BitVec.toNat_ofNat]
    omega
  · intro hnone
    have hkey := lowestKey_eq_none hnone
    have hexec : exec (.ldKey x) s = s.goto s.pc := by
      rw [exec_ldKey, receiveKey_none hkey, hkey]
      rfl
    exact completes_of_goto hexec rfl (framedBy_refl {} s) rfl

/-! ## Timers -/

theorem exec_ldFromDT (x : RegNum) (s : State) : exec (.ldFromDT x) s = (s.setReg x s.dt).advance := rfl

/-- Settles O40: the instruction copies DT of the state it runs in, which in a step is `atFetch`. -/
theorem delayTimerIsRead : Obligations.DelayTimerIsRead := by
  constructor
  · intro s x
    exact completes_of_setReg (exec_ldFromDT x s) fun t hreg hpc => ⟨hreg, hpc⟩
  · intro s x hrun hpc hdec
    have hstep : step s = exec (.ldFromDT x) (atFetch s) := stepRunsDecodedInstruction s _ hrun hpc hdec
    refine ⟨_, hstep.trans (exec_ldFromDT x _), ?_, rfl⟩
    rw [reg_finish, reg_setReg, if_pos rfl]

/-- Settles O41: each instruction updates its counter; the tone is active while ST is nonzero. -/
theorem timersAreWritten : Obligations.TimersAreWritten := by
  intro s x
  constructor
  · exact completes_of_effect (i := .ldDT x) rfl ⟨rfl, rfl⟩
  · refine completes_of_effect (i := .ldST x) rfl ⟨rfl, rfl, ?_⟩
    show decide ((s.reg x).toNat > 0) = true ↔ s.reg x ≠ 0
    rw [decide_eq_true_iff, ne_eq, ← BitVec.toNat_inj]
    exact Nat.pos_iff_ne_zero

end Sys2Proof.Machine
end

section
/-! PROOFS. The blitter as one plot per landing (46_draw R109, R110): the pixels and the collision after a sequence of
plots. -/

namespace Sys2Proof.Machine

/-! ## A sequence of plots -/

/-- Plot at each of the coordinates, in order. `rows_eq_plotAll` ties it to the blitter. -/
def Blit.plotAll (p : Blit) (l : List (Nat × Nat)) : Blit := l.foldl (fun q c => q.plot c.1 c.2) p

theorem plotAll_cons (p : Blit) (c : Nat × Nat) (l : List (Nat × Nat)) :
    p.plotAll (c :: l) = (p.plot c.1 c.2).plotAll l := rfl

theorem plotAll_append (p : Blit) (l l' : List (Nat × Nat)) : p.plotAll (l ++ l') = (p.plotAll l).plotAll l' :=
  List.foldl_append

@[simp] theorem plotAll_width (p : Blit) (l : List (Nat × Nat)) : (p.plotAll l).screen.width = p.screen.width := by
  induction l generalizing p with
  | nil => rfl
  | cons c l ih => exact ih (p.plot c.1 c.2)

@[simp] theorem plotAll_height (p : Blit) (l : List (Nat × Nat)) : (p.plotAll l).screen.height = p.screen.height := by
  induction l generalizing p with
  | nil => rfl
  | cons c l ih => exact ih (p.plot c.1 c.2)

/-- The toggle wraps its coordinates itself. -/
theorem toggle_mod (f : Screen) (x y : Nat) : f.toggle (x % f.width) (y % f.height) = f.toggle x y := by
  by_cases h : 0 < f.width ∧ 0 < f.height
  · refine screen_ext _ _ rfl rfl fun px py _ _ => ?_
    simp only [pixel_toggle f h, Nat.mod_mod]
  · simp only [Screen.toggle, Screen.toggleCells, dif_neg h]

theorem plot_mod (p : Blit) (x y : Nat) : p.plot (x % p.screen.width) (y % p.screen.height) = p.plot x y := by
  simp only [Blit.plot, toggle_mod, pixel_mod]

/-! ## The blitter plots the landings -/

/-- The landings of one sprite byte at row `y`. -/
def rowLandings (w h : Nat) (b : Byte) (x0 y : Nat) : List (Nat × Nat) :=
  (List.range 8).filterMap fun col => if b.getLsbD (7 - col) then some ((x0 + col) % w, y % h) else none

theorem landings_eq (s : State) (x y : RegNum) (n : Nibble) :
    landings s x y n = (List.range n.toNat).flatMap fun row =>
      rowLandings s.fb.width s.fb.height (Mem.read s.mem (s.i.toNat + row)) (s.reg x).toNat ((s.reg y).toNat + row) :=
  rfl

theorem row_eq_plotAll (p : Blit) (b : Byte) (x0 y : Nat) :
    p.row b x0 y = p.plotAll (rowLandings p.screen.width p.screen.height b x0 y) := by
  unfold Blit.row rowLandings
  induction List.range 8 generalizing p with
  | nil => rfl
  | cons col cols ih =>
    rw [List.foldl_cons, List.filterMap_cons, ih]
    split
    · rw [← plot_mod]
      rfl
    · rfl

/-- The rows of a sprite read from memory, by induction on their number. -/
theorem rows_eq_plotAll (p : Blit) (x0 y : Nat) (m : Mem) (a len : Nat) :
    p.rows x0 y (Mem.readBlock m a len) = p.plotAll ((List.range len).flatMap fun row =>
      rowLandings p.screen.width p.screen.height (Mem.read m (a + row)) x0 (y + row)) := by
  induction len generalizing p y a with
  | zero => rfl
  | succ len ih =>
    have hread : Mem.readBlock m a (len + 1) = Mem.read m a :: Mem.readBlock m (a + 1) len := by
      simp [Mem.readBlock, List.range_succ_eq_map, Nat.add_assoc, Nat.add_comm 1]
    rw [hread, Blit.rows, row_eq_plotAll, ih, plotAll_width, plotAll_height, ← plotAll_append, List.range_succ_eq_map,
      List.flatMap_cons, List.flatMap_map]
    simp only [Nat.add_zero, Nat.add_assoc, Nat.add_comm 1]

theorem blit_eq_plotAll (s : State) (x y : RegNum) (n : Nibble) :
    s.blit x y n = Blit.plotAll { screen := s.fb, collided := false } (landings s x y n) :=
  rows_eq_plotAll _ _ _ _ _ _

/-! ## Pixels and collision -/

/-- Every coordinate of the list is a pixel of a framebuffer of this size. -/
def Wrapped (w h : Nat) (l : List (Nat × Nat)) : Prop := ∀ c ∈ l, c.1 < w ∧ c.2 < h

theorem pixel_plot {p : Blit} {c : Nat × Nat} (hc : c.1 < p.screen.width ∧ c.2 < p.screen.height) {px py : Nat}
    (hx : px < p.screen.width) (hy : py < p.screen.height) :
    (p.plot c.1 c.2).screen.pixel px py = (p.screen.pixel px py ^^ decide (c = (px, py))) := by
  have hiff : (px % p.screen.width = c.1 % p.screen.width ∧ py % p.screen.height = c.2 % p.screen.height) ↔
      c = (px, py) := by
    rw [Nat.mod_eq_of_lt hx, Nat.mod_eq_of_lt hy, Nat.mod_eq_of_lt hc.1, Nat.mod_eq_of_lt hc.2, Prod.ext_iff]
    exact and_congr eq_comm eq_comm
  rw [plot_screen, pixel_toggle _ ⟨by omega, by omega⟩, if_congr hiff rfl rfl]
  by_cases h : c = (px, py) <;> simp [h]

/-- A pixel is inverted once for every landing on it. -/
theorem pixel_plotAll {p : Blit} {l : List (Nat × Nat)} (hl : Wrapped p.screen.width p.screen.height l) {px py : Nat}
    (hx : px < p.screen.width) (hy : py < p.screen.height) :
    (p.plotAll l).screen.pixel px py = (p.screen.pixel px py ^^ decide (l.count (px, py) % 2 = 1)) := by
  induction l generalizing p with
  | nil => simp [Blit.plotAll]
  | cons c l ih =>
    have hc := hl c List.mem_cons_self
    have hrest : Wrapped (p.plot c.1 c.2).screen.width (p.plot c.1 c.2).screen.height l :=
      fun d hd => hl d (List.mem_cons_of_mem _ hd)
    rw [plotAll_cons, ih hrest hx hy, pixel_plot hc hx hy, List.count_cons, Bool.xor_assoc]
    congr 1
    by_cases h : c = (px, py)
    · rcases Nat.mod_two_eq_zero_or_one (l.count (px, py)) with hk | hk <;> simp [h, hk, Nat.add_mod]
    · simp [h]

/-- Some landing of the list finds its pixel set: one that was set before, or one hit a second time. -/
def Collides (f : Screen) (l : List (Nat × Nat)) : Prop :=
  ∃ c ∈ l, f.pixel c.1 c.2 = true ∨ 2 ≤ l.count c

theorem collides_cons {p : Blit} {c : Nat × Nat} {l : List (Nat × Nat)}
    (hl : Wrapped p.screen.width p.screen.height (c :: l)) :
    Collides p.screen (c :: l) ↔ p.screen.pixel c.1 c.2 = true ∨ Collides (p.plot c.1 c.2).screen l := by
  have hc := hl c List.mem_cons_self
  have hother : ∀ d ∈ l, d ≠ c → (p.plot c.1 c.2).screen.pixel d.1 d.2 = p.screen.pixel d.1 d.2 := by
    intro d hd hne
    obtain ⟨hx, hy⟩ := hl d (List.mem_cons_of_mem _ hd)
    rw [pixel_plot hc hx hy, decide_eq_false fun e => hne e.symm, Bool.xor_false]
  constructor
  · rintro ⟨d, hd, hhit⟩
    by_cases hdc : d = c
    · subst hdc
      by_cases hset : p.screen.pixel d.1 d.2 = true
      · exact .inl hset
      · have hagain : d ∈ l := by
          rw [List.count_cons_self] at hhit
          exact List.count_pos_iff.mp (by have := hhit.resolve_left hset; omega)
        refine .inr ⟨d, hagain, .inl ?_⟩
        rw [pixel_plot hc hc.1 hc.2, decide_eq_true rfl, Bool.eq_false_of_not_eq_true hset]
        rfl
    · have hdl : d ∈ l := (List.mem_cons.mp hd).resolve_left hdc
      rw [List.count_cons_of_ne (Ne.symm hdc), ← hother d hdl hdc] at hhit
      exact .inr ⟨d, hdl, hhit⟩
  · rintro (hset | ⟨d, hd, hhit⟩)
    · exact ⟨c, List.mem_cons_self, .inl hset⟩
    · refine ⟨d, List.mem_cons_of_mem _ hd, ?_⟩
      by_cases hdc : d = c
      · subst hdc
        rw [List.count_cons_self]
        have := List.count_pos_iff.mpr hd
        exact .inr (by omega)
      · rw [List.count_cons_of_ne (Ne.symm hdc), ← hother d hd hdc]
        exact hhit

/-- The collision after a sequence of plots. -/
theorem collided_plotAll {p : Blit} {l : List (Nat × Nat)} (hl : Wrapped p.screen.width p.screen.height l) :
    (p.plotAll l).collided = true ↔ p.collided = true ∨ Collides p.screen l := by
  induction l generalizing p with
  | nil => simp [Blit.plotAll, Collides]
  | cons c l ih =>
    have hrest : Wrapped (p.plot c.1 c.2).screen.width (p.plot c.1 c.2).screen.height l :=
      fun d hd => hl d (List.mem_cons_of_mem _ hd)
    rw [plotAll_cons, ih hrest, plot_collided, Bool.or_eq_true, collides_cons hl, or_assoc]

end Sys2Proof.Machine
end

section
/-! PROOFS. The draw instruction (46_draw R109 to R111): one inversion per landing on a framebuffer of any size, the
closed form where no two bits hit one pixel, and erasing by drawing again. -/

namespace Sys2Proof.Machine

/-! ## The landings of a sprite -/

theorem wrapped_landings {s : State} (h : 0 < s.fb.width ∧ 0 < s.fb.height) (x y : RegNum) (n : Nibble) :
    Wrapped s.fb.width s.fb.height (landings s x y n) := by
  intro c hc
  rw [landings_eq, List.mem_flatMap] at hc
  obtain ⟨row, -, hc⟩ := hc
  obtain ⟨col, -, hc⟩ := List.mem_filterMap.mp hc
  split at hc
  · obtain rfl := Option.some.inj hc
    exact ⟨Nat.mod_lt _ h.1, Nat.mod_lt _ h.2⟩
  · exact nomatch hc

/-- A pixel is listed exactly if some set bit covers it. -/
theorem mem_landings_iff (s : State) (x y : RegNum) (n : Nibble) (px py : Nat) :
    (px, py) ∈ landings s x y n ↔ Covers s x y n px py := by
  simp only [landings_eq, rowLandings, Covers, List.mem_flatMap, List.mem_filterMap, List.mem_range]
  constructor
  · rintro ⟨row, hrow, col, hcol, h⟩
    split at h
    · next hbit =>
      obtain ⟨hx, hy⟩ := Prod.mk.inj (Option.some.inj h)
      exact ⟨row, col, hrow, hcol, hbit, hx, hy⟩
    · exact nomatch h
  · rintro ⟨row, col, hrow, hcol, hbit, hx, hy⟩
    exact ⟨row, hrow, col, hcol, by rw [if_pos hbit, hx, hy]⟩

/-- Offsets below the modulus stay apart. -/
theorem offset_eq_of_mod_eq {w a c d : Nat} (hc : c < w) (hd : d < w) (h : (a + c) % w = (a + d) % w) : c = d :=
  Nat.ModEq.eq_of_lt_of_lt (Nat.ModEq.add_left_cancel' a h) hc hd

theorem mem_rowLandings {w h : Nat} {b : Byte} {x0 y : Nat} {c : Nat × Nat} (hc : c ∈ rowLandings w h b x0 y) :
    c.2 = y % h := by
  obtain ⟨col, -, hcol⟩ := List.mem_filterMap.mp hc
  split at hcol
  · rw [← Option.some.inj hcol]
  · exact nomatch hcol

/-- The bits of one row hit different columns of a framebuffer at least 8 wide. -/
theorem nodup_rowLandings {w : Nat} (hw : 8 ≤ w) (h : Nat) (b : Byte) (x0 y : Nat) :
    (rowLandings w h b x0 y).Nodup := by
  refine List.pairwise_filterMap.mpr (List.pairwise_lt_range.imp_of_mem fun {c d} hc hd hlt => ?_)
  have hc8 := List.mem_range.mp hc
  have hd8 := List.mem_range.mp hd
  intro p hp q hq hpq
  subst hpq
  split at hp
  · split at hq
    · have hx := (Prod.mk.inj (Option.some.inj (hp.trans hq.symm))).1
      have := offset_eq_of_mod_eq (by omega) (by omega) hx
      omega
    · exact nomatch hq
  · exact nomatch hp

/-- On a framebuffer at least 8 wide and n high no two bits hit one pixel (R110). -/
theorem nodup_landings {s : State} {x y : RegNum} {n : Nibble} (hw : 8 ≤ s.fb.width) (hh : n.toNat ≤ s.fb.height) :
    (landings s x y n).Nodup := by
  rw [landings_eq, List.nodup_flatMap]
  refine ⟨fun row _ => nodup_rowLandings hw _ _ _ _, List.pairwise_lt_range.imp_of_mem fun {c d} hc hd hlt => ?_⟩
  have hcn := List.mem_range.mp hc
  have hdn := List.mem_range.mp hd
  intro p hp hq
  have hy := (mem_rowLandings hp).symm.trans (mem_rowLandings hq)
  have := offset_eq_of_mod_eq (by omega) (by omega) hy
  omega

theorem count_landings {s : State} {x y : RegNum} {n : Nibble} (hw : 8 ≤ s.fb.width) (hh : n.toNat ≤ s.fb.height)
    (px py : Nat) : (landings s x y n).count (px, py) ≤ 1 :=
  List.nodup_iff_count_le_one.mp (nodup_landings hw hh) _

/-- The landings depend on the sprite, its place and the size of the framebuffer. -/
theorem landings_congr {s u : State} {x y : RegNum} {n : Nibble} (hw : u.fb.width = s.fb.width)
    (hh : u.fb.height = s.fb.height) (hmem : u.mem = s.mem) (hi : u.i = s.i) (hx : u.reg x = s.reg x)
    (hy : u.reg y = s.reg y) : landings u x y n = landings s x y n := by
  rw [landings_eq, landings_eq, hw, hh, hmem, hi, hx, hy]

/-! ## The blitter in closed form -/

/-- DRW inverts a pixel once for every landing on it. -/
theorem pixel_blit (s : State) (x y : RegNum) (n : Nibble) {px py : Nat} (hx : px < s.fb.width)
    (hy : py < s.fb.height) : (s.blit x y n).screen.pixel px py =
      (s.fb.pixel px py ^^ decide ((landings s x y n).count (px, py) % 2 = 1)) := by
  rw [blit_eq_plotAll]
  exact pixel_plotAll (wrapped_landings ⟨by omega, by omega⟩ x y n) hx hy

theorem collided_plotAll_empty {p : Blit} (h : ¬ (0 < p.screen.width ∧ 0 < p.screen.height)) (l : List (Nat × Nat)) :
    (p.plotAll l).collided = p.collided := by
  induction l generalizing p with
  | nil => rfl
  | cons c l ih => rw [plotAll_cons, ih (p := p.plot c.1 c.2) h, plot_collided, pixel_empty _ h, Bool.or_false]

/-- DRW reports a collision exactly if some landing found its pixel set. -/
theorem collided_blit_iff (s : State) (x y : RegNum) (n : Nibble) :
    (s.blit x y n).collided = true ↔ ∃ px py, px < s.fb.width ∧ py < s.fb.height ∧
      ((s.fb.pixel px py = true ∧ (px, py) ∈ landings s x y n) ∨ 2 ≤ (landings s x y n).count (px, py)) := by
  rw [blit_eq_plotAll]
  by_cases h : 0 < s.fb.width ∧ 0 < s.fb.height
  · have hl := wrapped_landings h x y n
    rw [collided_plotAll hl, or_iff_right Bool.false_ne_true]
    constructor
    · rintro ⟨⟨px, py⟩, hc, hhit⟩
      obtain ⟨hx, hy⟩ := hl _ hc
      exact ⟨px, py, hx, hy, hhit.imp_left fun hset => ⟨hset, hc⟩⟩
    · rintro ⟨px, py, -, -, ⟨hset, hc⟩ | htwice⟩
      · exact ⟨_, hc, .inl hset⟩
      · exact ⟨_, List.count_pos_iff.mp (by omega), .inr htwice⟩
  · rw [collided_plotAll_empty h]
    constructor
    · exact fun hfalse => absurd hfalse Bool.false_ne_true
    · rintro ⟨px, py, hx, hy, -⟩
      exact absurd ⟨by omega, by omega⟩ h

section
variable {s : State} {x y : RegNum} {n : Nibble} (hw : 8 ≤ s.fb.width) (hh : n.toNat ≤ s.fb.height)
include hw hh

/-- Where no two bits hit one pixel, the covered pixels are inverted. -/
theorem pixel_blit_covered {px py : Nat} (hx : px < s.fb.width) (hy : py < s.fb.height)
    (hc : Covers s x y n px py) : (s.blit x y n).screen.pixel px py = !s.fb.pixel px py := by
  have hpos := List.count_pos_iff.mpr ((mem_landings_iff s x y n px py).mpr hc)
  have hone : (landings s x y n).count (px, py) = 1 := by
    have := count_landings (x := x) (y := y) hw hh px py
    omega
  rw [pixel_blit s x y n hx hy, hone]
  exact Bool.xor_true _

/-- Where no two bits hit one pixel, VF reports a covered pixel that was set. -/
theorem collided_blit_iff_covered : (s.blit x y n).collided = true ↔
    ∃ px py, px < s.fb.width ∧ py < s.fb.height ∧ Covers s x y n px py ∧ s.fb.pixel px py = true := by
  rw [collided_blit_iff]
  refine exists_congr fun px => exists_congr fun py => and_congr_right fun _ => and_congr_right fun _ => ?_
  have hle := count_landings (x := x) (y := y) hw hh px py
  rw [or_iff_left (by omega), mem_landings_iff, and_comm]

end

/-- The pixels that no bit covers are kept. -/
theorem pixel_blit_not_covered {s : State} {x y : RegNum} {n : Nibble} {px py : Nat} (hx : px < s.fb.width)
    (hy : py < s.fb.height) (hc : ¬ Covers s x y n px py) :
    (s.blit x y n).screen.pixel px py = s.fb.pixel px py := by
  have hzero := List.count_eq_zero.mpr fun hmem => hc ((mem_landings_iff s x y n px py).mp hmem)
  rw [pixel_blit s x y n hx hy, hzero]
  exact Bool.xor_false _

/-! ## The instruction -/

/-- The sprite is empty or inside memory (R109, D11). -/
theorem errorOf_drw_fits {s : State} (x y : RegNum) {n : Nibble} (h : n = 0#4 ∨ s.i.toNat + n.toNat - 1 ≤ 0xFFF) :
    errorOf (.drw x y n) s = none := by
  rw [errorOf_drw, if_neg]
  rintro ⟨hn, hout⟩
  obtain rfl | hin := h
  · exact (nibble_ne_zero_iff _).mpr hn rfl
  · omega

/-- The state after a DRW that raises no error. -/
theorem exec_drw_fits {s : State} (x y : RegNum) {n : Nibble} (h : n = 0#4 ∨ s.i.toNat + n.toNat - 1 ≤ 0xFFF) :
    exec (.drw x y n) s = .next (completed (.drw x y n) s) := by
  rw [exec_drw_eq_successor, successor_of_no_error (errorOf_drw_fits x y h)]

theorem completed_drw_fb (s : State) (x y : RegNum) (n : Nibble) :
    (completed (.drw x y n) s).fb = (s.blit x y n).screen := rfl

theorem completed_drw_vF (s : State) (x y : RegNum) (n : Nibble) :
    (completed (.drw x y n) s).reg vF = flagByte (s.blit x y n).collided := by
  rw [completed_of_ne_exit (by simp), effect, reg_finish, reg_setReg, if_pos rfl]

theorem flagByte_eq_one (c : Bool) : flagByte c = 1#8 ↔ c = true := by
  cases c <;> decide

theorem flagByte_eq_zero (c : Bool) : flagByte c = 0#8 ↔ c = false := by
  cases c <;> decide

/-- Settles O43: a nonempty sprite past 0xFFF is DRW's error condition. -/
theorem drawPastTheEndHalts : Obligations.DrawPastTheEndHalts := by
  intro s x y n hn hout
  have herr := (errorOf_drw x y n s).trans (if_pos ⟨(nibble_ne_zero_iff n).mp hn, hout⟩)
  rw [exec_drw_eq_successor, successor_of_error herr]

/-- Settles O54: the blitter plots once per landing. -/
theorem drawTogglesOncePerLanding : Obligations.DrawTogglesOncePerLanding := by
  intro s x y n hfits
  refine ⟨_, exec_drw_fits x y hfits, blit_width s x y n, blit_height s x y n, ?pixels, ?flag, ?collision⟩
  case pixels =>
    intro px py hx hy
    rw [completed_drw_fb, pixel_blit s x y n hx hy]
    cases s.fb.pixel px py <;> simp
  case flag =>
    rw [completed_drw_vF, flagByte_eq_zero, flagByte_eq_one]
    exact (Bool.eq_false_or_eq_true _).symm
  case collision => rw [completed_drw_vF, flagByte_eq_one, collided_blit_iff]

/-- Settles O42: no two bits hit one pixel, so a landing is a covered pixel, inverted once. -/
theorem drawInvertsCoveredPixels : Obligations.DrawInvertsCoveredPixels := by
  intro s x y n hfits hw hh
  have hexec : exec (.drw x y n) s = (effect (.drw x y n) s).goto (s.pc + 2#16) := exec_drw_fits x y hfits
  have hflag := completed_drw_vF s x y n
  refine completes_of_effect hexec ⟨rfl, ?pixels, ?set, ?clear⟩
  case pixels =>
    intro px py hx hy
    exact ⟨pixel_blit_covered hw hh hx hy, pixel_blit_not_covered hx hy⟩
  case set =>
    intro hset
    exact hflag.trans ((flagByte_eq_one _).mpr ((collided_blit_iff_covered hw hh).mpr hset))
  case clear =>
    intro hclear
    refine hflag.trans ((flagByte_eq_zero _).mpr (Bool.eq_false_of_not_eq_true fun hcollided => ?_))
    obtain ⟨px, py, hx, hy, hc, hset⟩ := (collided_blit_iff_covered hw hh).mp hcollided
    exact absurd hset (Bool.not_eq_true _ ▸ hclear px py hx hy hc)

/-! ## Drawing twice -/

/-- `u` shows what DRW drew at `s`, and has the same sprite at the same place. -/
structure Redraws (s u : State) (x y : RegNum) (n : Nibble) : Prop where
  fb : u.fb = (s.blit x y n).screen
  mem : u.mem = s.mem
  i : u.i = s.i
  regX : u.reg x = s.reg x
  regY : u.reg y = s.reg y

section
variable {s u : State} {x y : RegNum} {n : Nibble} (h : Redraws s u x y n)
include h

theorem Redraws.width : u.fb.width = s.fb.width := by rw [h.fb, blit_width]

theorem Redraws.height : u.fb.height = s.fb.height := by rw [h.fb, blit_height]

theorem Redraws.landings : landings u x y n = landings s x y n :=
  landings_congr h.width h.height h.mem h.i h.regX h.regY

theorem Redraws.covers (px py : Nat) : Covers u x y n px py ↔ Covers s x y n px py := by
  rw [← mem_landings_iff, ← mem_landings_iff, h.landings]

/-- Every pixel is inverted an even number of times. -/
theorem Redraws.restores : (u.blit x y n).screen = s.fb := by
  have hw : (u.blit x y n).screen.width = s.fb.width := (blit_width u x y n).trans h.width
  have hh : (u.blit x y n).screen.height = s.fb.height := (blit_height u x y n).trans h.height
  refine screen_ext _ _ hw hh fun px py hx hy => ?_
  rw [hw] at hx
  rw [hh] at hy
  rw [pixel_blit u x y n (h.width ▸ hx) (h.height ▸ hy), h.landings, h.fb, pixel_blit s x y n hx hy, Bool.xor_assoc,
    Bool.xor_self, Bool.xor_false]

/-- The second draw finds a covered pixel set exactly if the first draw set it. -/
theorem Redraws.collided_iff (hw : 8 ≤ s.fb.width) (hh : n.toNat ≤ s.fb.height) :
    (u.blit x y n).collided = true ↔
      ∃ px py, px < s.fb.width ∧ py < s.fb.height ∧ Covers s x y n px py ∧ s.fb.pixel px py = false := by
  rw [collided_blit_iff_covered (h.width ▸ hw) (h.height ▸ hh), h.width, h.height]
  refine exists_congr fun px => exists_congr fun py => and_congr_right fun hx => and_congr_right fun hy => ?_
  rw [h.covers]
  refine and_congr_right fun hc => ?_
  rw [h.fb, pixel_blit_covered hw hh hx hy hc, Bool.not_eq_true']

end

/-- Settles O44: the second draw lands where the first did. -/
theorem drawTwiceErases : Obligations.DrawTwiceErases := by
  intro s t u x y n hfits hexec hfb hmem hi hx hy
  rw [exec_drw_fits x y hfits] at hexec
  obtain rfl := Host.Outcome.next.inj hexec
  have h : Redraws s u x y n := ⟨hfb, hmem, hi, hx, hy⟩
  refine ⟨_, exec_drw_fits x y (hi ▸ hfits), h.restores, fun hw hh => ⟨fun hclear => ?_, fun hset => ?_⟩⟩
  · rw [completed_drw_vF, flagByte_eq_one, h.collided_iff hw hh]
    exact hclear
  · rw [completed_drw_vF, flagByte_eq_zero]
    refine Bool.eq_false_of_not_eq_true fun hcollided => ?_
    obtain ⟨px, py, hpx, hpy, hc, hclear⟩ := (h.collided_iff hw hh).mp hcollided
    exact Bool.false_ne_true (hclear.symm.trans (hset px py hpx hpy hc))

end Sys2Proof.Machine
end
